-- ==== Sys2Proof/Word.lean ====
section
/-! DEFINITION. The word types of the area loop: octets, station numbers, 24-bit positions. -/

namespace Sys2Proof

/-- One octet of a cell. -/
abbrev Byte := BitVec 8

/-- A station number of the loop, 0 to 63 (R2). -/
abbrev Station := BitVec 6

/-- A position value as it travels, three octets in two's complement (11, before 11.1). -/
abbrev Word24 := BitVec 24

end Sys2Proof
end

