-- ==== Sys2Proof/Syntax.lean ====
section
/-! DEFINITION. The commands of the CC-8: one constructor of `Instr` per row of
spec/opcode_table.json, over the cells of the area loop. -/

namespace Sys2Proof

/-- The two passages of the loop through the part (00, Ring placement). -/
inductive Leg
  | outbound
  | ret
  deriving DecidableEq, Repr

/-- The nine kinds of cell (01, section 1.1). -/
inductive CellKind
  | head | tail | void | order | state | mux | manage | reply | notice
  deriving DecidableEq, Repr

/-- The thirteen payload octets of a cell, octets 2 to 14. -/
abbrev Payload := Vector Byte 13

/-- A cell: kind, station, thirteen payload octets, check octet (01, section 1.1). -/
structure Cell where
  kind : Byte
  station : Byte
  payload : Payload
  check : Byte
  deriving DecidableEq, Repr

/-- The kinds R9 forwards on the outbound leg. -/
inductive OutboundPassKind
  | tail | state | mux | reply | notice
  deriving DecidableEq, Repr

/-- The kinds R14 forwards on the return leg. -/
inductive ReturnPassKind
  | order | manage | reply | notice | head
  deriving DecidableEq, Repr

/-- The commands. A row that is a valid cell carries the cell's station octet and payload (its kind
is the row's, its check octet follows from the rest, R3); a request row carries the tag and the
parameter octets of 11.4 and is a MANAGE cell addressed to the part. -/
inductive Instr
  /-- INVALID_CELL (R1). -/
  | invalidCell (leg : Leg) (cell : Cell)
  /-- OUTBOUND_HEAD (R5). -/
  | outboundHead (station : Byte) (payload : Payload)
  /-- OUTBOUND_ORDER (R7). -/
  | outboundOrder (station : Byte) (payload : Payload)
  /-- OUTBOUND_VOID (R8). -/
  | outboundVoid (station : Byte) (payload : Payload)
  /-- OUTBOUND_PASSTHROUGH (R9). -/
  | outboundPassthrough (kind : OutboundPassKind) (station : Byte) (payload : Payload)
  /-- RETURN_PASSTHROUGH (R14). -/
  | returnPassthrough (kind : ReturnPassKind) (station : Byte) (payload : Payload)
  /-- RETURN_STATE (R10). -/
  | returnState (station : Byte) (payload : Payload)
  /-- RETURN_MUX (R11). -/
  | returnMux (station : Byte) (payload : Payload)
  /-- RETURN_VOID (R12). -/
  | returnVoid (station : Byte) (payload : Payload)
  /-- SWEEP_END (R13): a valid return TAIL. -/
  | sweepEnd (station : Byte) (payload : Payload)
  /-- MISS_COUNT_SILENT (R41). -/
  | missCountSilent (position : Fin 8)
  /-- RUNUP_EXPIRY (R35). -/
  | runupExpiry (position : Fin 8)
  /-- STOP_EXPIRY (R36). -/
  | stopExpiry (position : Fin 8)
  /-- STALL_FLAG (R38). -/
  | stallFlag (position : Fin 8)
  /-- STALL_BREAK (R38, R39). -/
  | stallBreak (position : Fin 8)
  /-- MARK_RECOGNISED (R98). -/
  | markRecognised (position : Fin 8)
  /-- SETTLE_EXPIRY (R52). -/
  | settleExpiry (position : Fin 8)
  /-- STRIKE_EXPIRY (R55). -/
  | strikeExpiry (position : Fin 8)
  /-- STAGGER_GAP_EXPIRY (R56). -/
  | staggerGapExpiry
  /-- STRIKE_GRANT (R54). -/
  | strikeGrant
  /-- DWELL_EXPIRY (R59). -/
  | dwellExpiry (position : Fin 8)
  /-- HOLD_EXPIRY (R108). -/
  | holdExpiry (chain : Fin 4)
  /-- SWITCH_EXPIRY (R114). -/
  | switchExpiry (chain : Fin 4)
  /-- RULE_FIRE (R143): the Rule Unit's share of a report that shows these signals. -/
  | ruleFire (position : Fin 8) (signals : Byte)
  /-- SILENCE_TIMER_EXPIRY (R16). -/
  | silenceTimerExpiry
  /-- RESET_ASSERT (R4). -/
  | resetAssert
  /-- RESET_RELEASE (R18), with the strap levels read. -/
  | resetRelease (straps : BitVec 6)
  /-- POWER_ON (R171), with the strap levels read. -/
  | powerOn (straps : BitVec 6)
  /-- OUTBOUND_MANAGE (R6). -/
  | outboundManage (station : Byte) (payload : Payload)
  /-- UNKNOWN_REQUEST (R163): a request code of 0 or 25 to 255. -/
  | unknownRequest (code tag : Byte) (parameters : Vector Byte 11)
  /-- DEFINE_POSITION (R22). -/
  | definePosition (tag position station gauge rate : Byte)
  /-- READ_POSITION (R24). -/
  | readPosition (tag position view : Byte)
  /-- DEFINE_CHAIN (R123). -/
  | defineChain (tag chain station port0 port1 caption : Byte)
  /-- SET_CHAIN_MODE (R124). -/
  | setChainMode (tag chain mode holdLimit switchLimit runoutGuard : Byte)
  /-- READ_CHAIN (R125). -/
  | readChain (tag chain : Byte)
  /-- LOAD_CUE (R67). -/
  | loadCue (tag pageRecord : Byte) (record : Vector Byte 9)
  /-- READ_CUE (R70). -/
  | readCue (tag page record : Byte)
  /-- CLEAR_PAGE (R69). -/
  | clearPage (tag page : Byte)
  /-- MAP_PAGE (R71). -/
  | mapPage (tag position slot page : Byte)
  /-- SET_REEL (R73). -/
  | setReel (tag position flags : Byte) (lastPicture : Word24)
  /-- READ_REEL (R74). -/
  | readReel (tag position : Byte)
  /-- SET_POSITION (R75). -/
  | setPosition (tag position : Byte) (value : Word24)
  /-- RESTART_CUES (R77). -/
  | restartCues (tag position : Byte)
  /-- SET_SCREEN (R136). -/
  | setScreen (tag kind onAir next idle faulted : Byte)
  /-- READ_SCREEN (R137). -/
  | readScreen (tag kind : Byte)
  /-- SET_RULE (R147). -/
  | setRule (tag rule : Byte) (record : Vector Byte 5)
  /-- READ_RULE (R148). -/
  | readRule (tag rule : Byte)
  /-- TAKE_ALARM (R155). -/
  | takeAlarm (tag : Byte)
  /-- RELEASE_ALARM (R156). -/
  | releaseAlarm (tag : Byte)
  /-- SET_ALARM_ENABLES (R152). -/
  | setAlarmEnables (tag mode : Byte) (mask : BitVec 16)
  /-- READ_ALARMS (R157). -/
  | readAlarms (tag group position : Byte)
  /-- SET_PARAM (R166). -/
  | setParam (tag code : Byte) (value : BitVec 16)
  /-- READ_PARAM (R168). -/
  | readParam (tag code : Byte)
  /-- RESET_PART (R169). -/
  | resetPart (tag : Byte)
  /-- CELL_IN_SEARCHING_OR_LOST (R15). -/
  | cellInSearchingOrLost (leg : Leg) (cell : Cell)
  /-- LOSS_OF_SUPPLY (10, section 10.5; R171). -/
  | lossOfSupply
  deriving DecidableEq, Repr

end Sys2Proof
end

