-- ==== Sys2Proof/Machine/Cell.lean ====
section
/-! DEFINITION. What a cell is to the part: kind codes, the check octet, validity (R1, R3). -/

namespace Sys2Proof

/-- Kind codes 1 to 9 (01, section 1.1). -/
def CellKind.code : CellKind → Byte
  | .head => 1 | .tail => 2 | .void => 3 | .order => 4 | .state => 5
  | .mux => 6 | .manage => 7 | .reply => 8 | .notice => 9

/-- The kind a kind octet names, if it names one. -/
def CellKind.ofCode (b : Byte) : Option CellKind :=
  match b.toNat with
  | 1 => some .head | 2 => some .tail | 3 => some .void | 4 => some .order | 5 => some .state
  | 6 => some .mux | 7 => some .manage | 8 => some .reply | 9 => some .notice
  | _ => none

/-- The sum modulo 256 of octets 0 to 14. -/
def Cell.bodySum (c : Cell) : Byte :=
  c.payload.toList.foldl (· + ·) (c.kind + c.station)

/-- R1: a kind code 1 to 9, and the sixteen octets sum to 0 modulo 256. -/
def Cell.valid (c : Cell) : Bool :=
  (CellKind.ofCode c.kind).isSome && (c.bodySum + c.check == 0)

/-- The kind of a cell, by its octet 0. -/
def Cell.kind? (c : Cell) : Option CellKind := CellKind.ofCode c.kind

/-- R3: a cell with the check octet that makes it valid. -/
def Cell.make (k : CellKind) (station : Byte) (payload : Payload) : Cell :=
  let body : Cell := { kind := k.code, station, payload, check := 0 }
  { body with check := - body.bodySum }

/-- The station a station octet names; none for 64 to 255 (R2). -/
def stationOf (b : Byte) : Option Station :=
  if b.toNat < 64 then some (b.setWidth 6) else none

def OutboundPassKind.kind : OutboundPassKind → CellKind
  | .tail => .tail | .state => .state | .mux => .mux | .reply => .reply | .notice => .notice

def ReturnPassKind.kind : ReturnPassKind → CellKind
  | .order => .order | .manage => .manage | .reply => .reply | .notice => .notice | .head => .head

/-- Thirteen payload octets, those not given 0 (R172). -/
def payload13 (o2 : Byte) (o3 o4 o5 o6 o7 o8 o9 o10 o11 o12 o13 o14 : Byte := 0) : Payload :=
  #v[o2, o3, o4, o5, o6, o7, o8, o9, o10, o11, o12, o13, o14]

/-- R3: a VOID as the part writes it. -/
def Cell.void : Cell := Cell.make .void 0 (payload13 0)

end Sys2Proof
end

