-- ==== Sys2Proof/WellFormed.lean ====
section
/-! DEFINITION. When a command is the row it is listed under: the checks its operands' types do not
make by themselves. -/

namespace Sys2Proof

/-- R15 speaks of every valid cell but an outbound HEAD. -/
def Cell.isOutboundHead (leg : Leg) (c : Cell) : Bool :=
  leg == .outbound && c.kind? == some .head

/-- R163: the request codes no block owns. -/
def unknownCode (code : Byte) : Bool := code.toNat == 0 || 25 ≤ code.toNat

/-- Well-formed commands: INVALID_CELL carries an invalid cell (R1), UNKNOWN_REQUEST a code of 0 or
25 to 255 (R163), CELL_IN_SEARCHING_OR_LOST a valid cell that is no outbound HEAD (R15). Every other
row admits every value of its operands; the owning block answers those it refuses (R165). -/
def Instr.wellFormed : Instr → Bool
  | .invalidCell _ c => !c.valid
  | .unknownRequest code _ _ => unknownCode code
  | .cellInSearchingOrLost leg c => c.valid && !c.isOutboundHead leg
  | .outboundHead .. | .outboundOrder .. | .outboundVoid .. | .outboundPassthrough ..
  | .returnPassthrough .. | .returnState .. | .returnMux .. | .returnVoid .. | .sweepEnd ..
  | .missCountSilent .. | .runupExpiry .. | .stopExpiry .. | .stallFlag .. | .stallBreak ..
  | .markRecognised .. | .settleExpiry .. | .strikeExpiry .. | .staggerGapExpiry | .strikeGrant
  | .dwellExpiry .. | .holdExpiry .. | .switchExpiry .. | .ruleFire .. | .silenceTimerExpiry
  | .resetAssert | .resetRelease .. | .powerOn .. | .outboundManage .. | .definePosition ..
  | .readPosition .. | .defineChain .. | .setChainMode .. | .readChain .. | .loadCue ..
  | .readCue .. | .clearPage .. | .mapPage .. | .setReel .. | .readReel .. | .setPosition ..
  | .restartCues .. | .setScreen .. | .readScreen .. | .setRule .. | .readRule .. | .takeAlarm ..
  | .releaseAlarm .. | .setAlarmEnables .. | .readAlarms .. | .setParam .. | .readParam ..
  | .resetPart .. | .lossOfSupply => true

end Sys2Proof
end

