-- ==== Sys2Proof/Decode.lean ====
section
/-! DEFINITION. The reading of table words. No row of spec/opcode_table.json gives bits: the
commands are loop cells and events, so no word spells one. -/

namespace Sys2Proof

/-- The command a table word spells: none, since every row's "fields" is empty and none has
"fixed" bits. -/
def decodeTableWord (_nbits _w : Nat) : Option Instr := none

end Sys2Proof
end

