-- ==== Sys2Proof/Config.lean ====
section
/-! DEFINITION. What the part fixes, and the free values: constants with no body, of which nothing
can be proved (log 1, log 10). -/

namespace Sys2Proof

/-- R16: 100 ms on the 1 MHz clock, in cycles. -/
def Config.silenceLimit : Nat := 100000

/-- R158: the notices the notice queue may hold. -/
def Config.noticeCapacity : Nat := 16

/-- R27: the top of the position range; a position value stops there. -/
def Config.maxPosition : Int := 262143

/-- 00, Film position: the bottom of the position range. -/
def Config.minPosition : Int := -32768

/-- R28: a delta of this many frames or more is a count jump. -/
def Config.jumpDelta : Nat := 2048

/-- Hand-offs one command takes at the most before the rest wait for the next (log 2). -/
def Config.handoffFuel : Nat := 4096

/-- FREE VALUE (log 1): which block takes its hand-off next, where the spec leaves the order open. -/
opaque Config.arbiter : Nat → Nat

/-- FREE VALUE (log 10): what leaves a leg of a part without supply when a cell arrives there. -/
opaque Config.unpoweredCell : Leg → Cell → Option Cell

end Sys2Proof
end

