-- ==== Sys2Proof/Machine/State.lean ====
section
/-! DEFINITION. The state of the part: every register, queue, counter and pin the spec gives it, as
plain data, and its values after a reset. `Setup` is what a warm reset keeps, `Run` what it restarts
(R169), `Port` the Loop Port and the pins. -/

namespace Sys2Proof.Machine

/-! ### Names of values (11, section 11.6) -/

inductive Motion
  | unreported | stopped | runup | locked | stopping | broken
  deriving DecidableEq, Repr

inductive Gauge | mm35 | mm16
  deriving DecidableEq, Repr

inductive Rate | fps24 | fps25 | fps30
  deriving DecidableEq, Repr

inductive LampState
  | unreported | dark | queued | striking | settling | lit
  deriving DecidableEq, Repr

inductive Dowser | unknown | opened | closed
  deriving DecidableEq, Repr

inductive Role | onAir | next | idle | faulted
  deriving DecidableEq, Repr

inductive Input | port0 | port1 | caption | black
  deriving DecidableEq, Repr

/-- A projector input of a multiplexer. -/
inductive Port | zero | one
  deriving DecidableEq, Repr

inductive ChainState
  | unknown | dark | single | double | holding | switching | fallback
  deriving DecidableEq, Repr

inductive SwitchKind | change | planned | fallback | desk
  deriving DecidableEq, Repr

inductive HoldKind | preroll | change
  deriving DecidableEq, Repr

inductive Severity | major | minor
  deriving DecidableEq, Repr

inductive Verdict | pass | block | force
  deriving DecidableEq, Repr

inductive BlockReason | table | unforced | switching
  deriving DecidableEq, Repr

inductive CueOutcome
  | done | late | void | suppressed | heldOut | fault | takenByDesk
  deriving DecidableEq, Repr

inductive Qualifier | any | moving | stopped
  deriving DecidableEq, Repr

inductive RuleAction | none | dowser | stop | loss
  deriving DecidableEq, Repr

inductive UnrefReason | jump | brk
  deriving DecidableEq, Repr

/-- The two conditions a CLEAR notice reports (R40, R42). -/
inductive ClearClass | brk | silent
  deriving DecidableEq, Repr

inductive Monitor | searching | locked | lost
  deriving DecidableEq, Repr

/-- Result codes of a REPLY (R165). -/
inductive Result | done | badreq | range | locked | busy | conflict | empty
  deriving DecidableEq, Repr

/-! ### Orders (07, sections 7.1 and 7.3) -/

/-- An order, SELECT with its argument. -/
inductive Order
  | start | stop | lampUp | lampDown | dowserOpen | dowserClose
  | select (input : Input)
  deriving DecidableEq, Repr

inductive Family | motion | lamp | dowser | select
  deriving DecidableEq, Repr

/-- One entry of the order queue; its age is its place in the queue. -/
structure OrderEntry where
  station : Station
  order : Order
  deriving DecidableEq, Repr

/-! ### Set-up -/

structure PosDef where
  station : Station
  gauge : Gauge
  rate : Rate
  deriving DecidableEq, Repr

structure ChainDef where
  station : Station
  port0 : Option (Fin 8)
  port1 : Option (Fin 8)
  caption : Bool
  deriving DecidableEq, Repr

structure ChainMode where
  armed : Bool
  fallback : Bool
  holdLimit : Nat
  switchLimit : Nat
  runoutGuard : Nat
  deriving DecidableEq, Repr

/-- R63: a MARK trigger holds an ordinal and may hold a backstop. -/
inductive Trigger
  | position
  | mark (ordinal : Nat) (backstop : Option Int)
  deriving DecidableEq, Repr

/-- R63: PREROLL and CHANGE hold a Require value, the other actions none. -/
inductive Action
  | preroll (require : Bool) | change (require : Bool)
  | lampPartner | lampDown | tailStop | caption | announce
  deriving DecidableEq, Repr

/-- A LOADED cue record. -/
structure Cue where
  trigger : Trigger
  point : Int
  action : Action
  tag : Byte
  deriving DecidableEq, Repr

/-- A reel record: four slots and the last picture. -/
structure Reel where
  slots : Vector (Option (Fin 32)) 4
  lastPicture : Option Int
  deriving DecidableEq, Repr

structure Rule where
  active : Bool
  positions : Byte
  qualifier : Qualifier
  mask : Byte
  values : Byte
  persistence : Nat
  severity : Severity
  action : RuleAction
  deriving DecidableEq, Repr

/-- The nine area parameters (10, section 10.3). -/
structure Params where
  staggerGap : Nat
  strikeLimit : Nat
  lampSettle : Nat
  runupLimit : Nat
  stopLimit : Nat
  dwellLimit : Nat
  motionWindow : Nat
  markLength : Nat
  markGap : Nat
  deriving DecidableEq, Repr

/-- What the desk has set up: kept by a warm reset. A cue record that is `none` is VACANT. -/
structure Setup where
  positions : Vector (Option PosDef) 8
  chains : Vector (Option ChainDef) 4
  modes : Vector ChainMode 4
  pages : Vector (Vector (Option Cue) 8) 32
  reels : Vector Reel 8
  screen : Vector (Vector Verdict 4) 7
  rules : Vector Rule 16
  enables : Vector Bool 14
  params : Params
  deriving DecidableEq, Repr

/-! ### Run-time records -/

inductive StopTimer
  | idle | running (count : Nat) | expired
  deriving DecidableEq, Repr

/-- The runtime of a position record (02, section 2.1). -/
structure MotionRec where
  lastCount : Option (BitVec 16)
  value : Int
  referenced : Bool
  motion : Motion
  runup : Option Nat
  stop : StopTimer
  miss : Nat
  stall : Nat
  silent : Bool
  stallFlag : Bool
  resyncDue : Bool
  signals : Byte
  deriving DecidableEq, Repr

/-- The lamp record (03, section 3.1). -/
structure LampRec where
  lamp : LampState
  dowser : Dowser
  downPending : Bool
  fault : Bool
  strikeTimer : Option Nat
  settle : Option Nat
  dwell : Nat
  primed : Bool
  ready : Bool
  deriving DecidableEq, Repr

inductive StrikeClass | urgent | ordinary
  deriving DecidableEq, Repr

structure StrikeEntry where
  position : Fin 8
  cls : StrikeClass
  deriving DecidableEq, Repr

inductive Gate
  | free | striking (position : Fin 8) | gap (count : Nat)
  deriving DecidableEq, Repr

inductive ScanHold | none | hold | wait
  deriving DecidableEq, Repr

/-- The scanner's record of a reel (05, section 5.1). `met` is the trigger of the cursor record met,
with its BY BACKSTOP mark, as R84 keeps it for a held, waiting or deferred record (log 12). -/
structure ScanRec where
  cursor : Nat
  marks : Nat
  hold : ScanHold
  partnerRan : Bool
  dotRun : Nat
  clearRun : Nat
  precedingClear : Nat
  met : Option Bool
  deriving DecidableEq, Repr

inductive HoldTimer
  | idle | running (count : Nat) | expired
  deriving DecidableEq, Repr

inductive SelectStatus | none | queued | sent
  deriving DecidableEq, Repr

/-- The runtime of a chain record (06, section 6.1). -/
structure ChainRec where
  observed : Option Input
  state : ChainState
  hold : Option (Fin 8 × HoldKind)
  holdTimer : HoldTimer
  target : Option (Input × SwitchKind)
  fromInput : Option Input
  select : SelectStatus
  switchTimer : Option Nat
  holdSweeps : Nat
  deriving DecidableEq, Repr

/-- An alarm slot (09, section 9.1). -/
structure Slot where
  pending : Bool
  underService : Bool
  noticed : Bool
  repeated : Bool
  sweep : Option Byte
  value : Option Int
  rule : Option (Fin 16 × Severity)
  deriving DecidableEq, Repr

/-- The contents of a queued notice (11, section 11.3). ALARM notices are never queued (R158). -/
inductive NoticeBody
  | clear (position : Fin 8) (cls : ClearClass)
  | cue (position : Fin 8) (tag : Byte) (action : Action) (outcome : CueOutcome) (byBackstop : Bool)
      (value : Int)
  | blocked (station : Station) (order : Order) (column : Role) (reason : BlockReason)
  | change (chain : Fin 4) (fromInput : Option Input) (target : Input) (kind : SwitchKind)
      (holdSweeps : Nat)
  | adopt (chain : Fin 4) (reported : Input) (first second : Option Input)
  | unref (position : Fin 8) (reason : UnrefReason) (value : Int)
  deriving DecidableEq, Repr

structure Notice where
  sweep : Byte
  body : NoticeBody
  deriving DecidableEq, Repr

/-! ### Hand-offs between the blocks -/

/-- Why a reel is evaluated (R80), as far as R91 tells events apart. -/
inductive CueEvent | change | holdExpiry | onAirLoss | deskSelect
  deriving DecidableEq, Repr

/-- What one block hands another and the other takes in its own course (R44, R61, R103, R108). -/
inductive Handoff
  /-- Lamp Unit: a report's LAMP and DOWSER signals (R44, R47). -/
  | lampReport (position : Fin 8) (lamp dowser : Bool)
  /-- Lamp Unit: a change of motion state, SILENT or the referenced flag (R60). -/
  | lampConditions (position : Fin 8)
  /-- Chain Unit: a change of motion state or SILENT (R44); `moved` where the motion state changed (R106,
  R119). -/
  | chainMotion (position : Fin 8) (moved : Bool)
  /-- Chain Unit: a setting or clearing of lamp fault (R61). -/
  | chainLampFault (position : Fin 8)
  /-- Chain Unit: BREAK, HALT, SILENT or LAMP as a fault of the position (R44, R50). -/
  | chainFault (position : Fin 8)
  /-- Chain Unit: an advance of a referenced position (R119). -/
  | chainAdvance (position : Fin 8)
  /-- Cue Scanner: the loss of reference (R29). -/
  | cueUnreferenced (position : Fin 8)
  /-- Cue Scanner: a report's DOT signal and whether it brought an advance (R82). -/
  | cueReport (position : Fin 8) (dot advance : Bool)
  /-- Cue Scanner: an evaluation event of a reel (R80). -/
  | cueEvent (position : Fin 8) (event : CueEvent)
  /-- Rule Unit: the report's signals with the motion after the motion step (R44). -/
  | ruleReport (position : Fin 8) (signals : Byte) (motion : Motion)
  /-- Motion Tracker: the miss count has reached 2 at this sweep end (R41). -/
  | silentDue (position : Fin 8)
  /-- Motion Tracker: the runup timer has reached its limit (R35). -/
  | runupDue (position : Fin 8)
  /-- Motion Tracker: the stop timer has reached its limit (R36). -/
  | stopDue (position : Fin 8)
  /-- Lamp Unit: the strike timer has reached its limit (R55). -/
  | strikeDue (position : Fin 8)
  /-- Lamp Unit: the settle counter has reached its limit (R52). -/
  | settleDue (position : Fin 8)
  /-- Lamp Unit: the gap counter has reached its limit (R56). -/
  | gapDue
  /-- Lamp Unit: the dwell counter has reached its limit (R59). -/
  | dwellDue (position : Fin 8)
  /-- Chain Unit: the hold timer stands expired (R108). -/
  | holdDue (chain : Fin 4)
  /-- Chain Unit: the switch timer has reached its limit (R114). -/
  | switchDue (chain : Fin 4)
  deriving DecidableEq, Repr

/-- The blocks that take hand-offs. -/
inductive Block | motion | lamp | cue | chain | rule
  deriving DecidableEq, Repr

/-- The run-time state of the blocks: restarted by a warm reset. `roles` and `onAir` are as last
worked (R103, log 25); `stack` has its top first; `schedule` and `choices` decide open orders of
hand-offs (log 1). -/
structure Run where
  motions : Vector MotionRec 8
  lamps : Vector LampRec 8
  strikeQueue : List StrikeEntry
  gate : Gate
  scans : Vector ScanRec 8
  chains : Vector ChainRec 4
  runoutRaised : Vector Bool 8
  tailStopped : Vector Bool 8
  roles : Vector Role 8
  onAir : Vector Bool 8
  orders : List OrderEntry
  counters : Vector (Vector Nat 8) 16
  slots : Vector Slot 82
  stack : List (Fin 82)
  notices : List Notice
  handoffs : List Handoff
  schedule : List Nat
  choices : Nat
  deriving DecidableEq, Repr

/-- The Loop Port and the pins. `silence` is the silence timer in cycles of CLK, none while stopped;
`loopOut` and `loopRet` are the last cells that left the two legs (log 11). -/
structure LoopPort where
  powered : Bool
  resetHeld : Bool
  straps : BitVec 6
  own : Station
  monitor : Monitor
  silence : Option Nat
  sweep : Byte
  reportedPositions : Vector Bool 8
  reportedChains : Vector Bool 4
  loopOut : Option Cell
  loopRet : Option Cell
  contact : Bool
  deriving DecidableEq, Repr

/-- The part, with the commands that wait for it, first in first out. -/
structure State where
  port : LoopPort
  setup : Setup
  run : Run
  pending : List Instr
  deriving DecidableEq, Repr

/-- Faults: none. The part answers, forwards or ignores whatever reaches it (R1, R163, R165) and its
spec names no condition that stops it; nothing raises a value of this type. Safe: no command ends in
a fault. -/
inductive Fault
  deriving DecidableEq, Repr

/-- Refusals: raised by Dispatch alone, for a command that has no meaning yet. Safe. -/
inductive Refusal
  /-- Raised by an arm of `exec` whose command is not modelled; safe (nothing is claimed of it). -/
  | notModelled (mnemonic : String)
  deriving DecidableEq, Repr

/-! ### Reset values -/

/-- R20. -/
def MotionRec.restarted : MotionRec where
  lastCount := none
  value := 0
  referenced := false
  motion := .unreported
  runup := none
  stop := .idle
  miss := 0
  stall := 0
  silent := false
  stallFlag := false
  resyncDue := false
  signals := 0

/-- R46. -/
def LampRec.restarted : LampRec where
  lamp := .unreported
  dowser := .unknown
  downPending := false
  fault := false
  strikeTimer := none
  settle := none
  dwell := 0
  primed := false
  ready := false

/-- R79. -/
def ScanRec.restarted : ScanRec where
  cursor := 0
  marks := 0
  hold := .none
  partnerRan := false
  dotRun := 0
  clearRun := 0
  precedingClear := 0
  met := none

/-- R100. -/
def ChainRec.restarted : ChainRec where
  observed := none
  state := .unknown
  hold := none
  holdTimer := .idle
  target := none
  fromInput := none
  select := .none
  switchTimer := none
  holdSweeps := 0

/-- R162. -/
def Slot.cleared : Slot where
  pending := false
  underService := false
  noticed := false
  repeated := false
  sweep := none
  value := none
  rule := none

/-- The run-time state right after a reset, full or warm (R169, R171): R20, R46, R79, R100, R138,
R149, R162. -/
def Run.restarted : Run where
  motions := Vector.replicate 8 MotionRec.restarted
  lamps := Vector.replicate 8 LampRec.restarted
  strikeQueue := []
  gate := .free
  scans := Vector.replicate 8 ScanRec.restarted
  chains := Vector.replicate 4 ChainRec.restarted
  runoutRaised := Vector.replicate 8 false
  tailStopped := Vector.replicate 8 false
  roles := Vector.replicate 8 .idle
  onAir := Vector.replicate 8 false
  orders := []
  counters := Vector.replicate 16 (Vector.replicate 8 0)
  slots := Vector.replicate 82 Slot.cleared
  stack := []
  notices := []
  handoffs := []
  schedule := []
  choices := 0

/-- R100: Armed off, Fallback on, hold limit 25, switch limit 3, runout guard 24. -/
def ChainMode.initial : ChainMode where
  armed := false
  fallback := true
  holdLimit := 25
  switchLimit := 3
  runoutGuard := 24

/-- R78. -/
def Reel.initial : Reel where
  slots := Vector.replicate 4 none
  lastPicture := none

/-- R149. -/
def Rule.initial : Rule where
  active := false
  positions := 0
  qualifier := .any
  mask := 0
  values := 0
  persistence := 1
  severity := .minor
  action := .none

/-- R138: rows START, STOP, LAMP UP, LAMP DOWN, DOWSER OPEN, DOWSER CLOSE, SELECT; columns ON AIR,
NEXT, IDLE, FAULTED. -/
def Setup.initialScreen : Vector (Vector Verdict 4) 7 :=
  #v[#v[.pass, .pass, .pass, .force],
     #v[.force, .pass, .pass, .pass],
     #v[.pass, .pass, .pass, .force],
     #v[.force, .pass, .pass, .pass],
     #v[.pass, .pass, .pass, .pass],
     #v[.force, .pass, .pass, .pass],
     #v[.pass, .pass, .pass, .force]]

/-- The defaults of 10, section 10.3. -/
def Params.initial : Params where
  staggerGap := 10
  strikeLimit := 100
  lampSettle := 25
  runupLimit := 75
  stopLimit := 250
  dwellLimit := 100
  motionWindow := 3
  markLength := 2
  markGap := 4

/-- The set-up after a full reset (R171). -/
def Setup.initial : Setup where
  positions := Vector.replicate 8 none
  chains := Vector.replicate 4 none
  modes := Vector.replicate 4 ChainMode.initial
  pages := Vector.replicate 32 (Vector.replicate 8 none)
  reels := Vector.replicate 8 Reel.initial
  screen := Setup.initialScreen
  rules := Vector.replicate 16 Rule.initial
  enables := Vector.replicate 14 true
  params := Params.initial

/-- R18: the Loop Port after a full reset that reads these straps. The lines keep the cells that
last left them (log 11). -/
def LoopPort.fullReset (straps : BitVec 6) (p : LoopPort) : LoopPort :=
  { p with
    straps := straps
    own := straps
    monitor := .searching
    silence := none
    sweep := 0
    reportedPositions := Vector.replicate 8 false
    reportedChains := Vector.replicate 4 false
    contact := false }

/-- The Loop Port of a supplied part whose straps are all open, after its full reset (log 8). -/
def LoopPort.initial : LoopPort where
  powered := true
  resetHeld := false
  straps := 63
  own := 63
  monitor := .searching
  silence := none
  sweep := 0
  reportedPositions := Vector.replicate 8 false
  reportedChains := Vector.replicate 4 false
  loopOut := none
  loopRet := none
  contact := false

/-- The part right after a full reset (R171), with no command waiting. -/
def State.reset : State where
  port := LoopPort.initial
  setup := Setup.initial
  run := Run.restarted
  pending := []

end Sys2Proof.Machine
end

