-- ==== Sys2Proof/Machine/Ops.lean ====
section
/-! DEFINITION. The named operations over the run-time state that every block uses: reading and
changing one record, handing on, raising an alarm (R151), queueing a notice (R158, R159) and the
order queue (R132 to R134). -/

namespace Sys2Proof.Machine

/-- What every block may read while it acts: the set-up, and the current sweep number (R5). -/
structure Env where
  setup : Setup
  sweep : Byte
  deriving DecidableEq, Repr

def allPositions : List (Fin 8) := [0, 1, 2, 3, 4, 5, 6, 7]

def allChains : List (Fin 4) := [0, 1, 2, 3]

def allRules : List (Fin 16) := [0, 1, 2, 3, 4, 5, 6, 7, 8, 9, 10, 11, 12, 13, 14, 15]

/-! ### One record of the run-time state -/

def Run.modMotion (p : Fin 8) (f : MotionRec → MotionRec) (r : Run) : Run :=
  { r with motions := r.motions.set p (f (r.motions.get p)) }

def Run.modLamp (p : Fin 8) (f : LampRec → LampRec) (r : Run) : Run :=
  { r with lamps := r.lamps.set p (f (r.lamps.get p)) }

def Run.modScan (p : Fin 8) (f : ScanRec → ScanRec) (r : Run) : Run :=
  { r with scans := r.scans.set p (f (r.scans.get p)) }

def Run.modChain (c : Fin 4) (f : ChainRec → ChainRec) (r : Run) : Run :=
  { r with chains := r.chains.set c (f (r.chains.get c)) }

def Run.modSlot (k : Fin 82) (f : Slot → Slot) (r : Run) : Run :=
  { r with slots := r.slots.set k (f (r.slots.get k)) }

def Run.setGate (g : Gate) (r : Run) : Run := { r with gate := g }

def Run.setRunoutRaised (p : Fin 8) (b : Bool) (r : Run) : Run :=
  { r with runoutRaised := r.runoutRaised.set p b }

def Run.setTailStopped (p : Fin 8) (b : Bool) (r : Run) : Run :=
  { r with tailStopped := r.tailStopped.set p b }

/-- Join the end of the strike queue (R53). -/
def Run.joinStrike (x : StrikeEntry) (r : Run) : Run :=
  { r with strikeQueue := r.strikeQueue ++ [x] }

/-- Take a position's entry out of the strike queue (R46, R49, R51, R54). -/
def Run.leaveStrike (p : Fin 8) (r : Run) : Run :=
  { r with strikeQueue := r.strikeQueue.filter (fun x => x.position != p) }

/-- Hand something to another block, to be taken in that block's own course. -/
def Run.hand (h : Handoff) (r : Run) : Run := { r with handoffs := r.handoffs ++ [h] }

def Run.handAll (hs : List Handoff) (r : Run) : Run := { r with handoffs := r.handoffs ++ hs }

/-! ### Alarm slots and raises (09, sections 9.1 and 9.2) -/

/-- Slot 0, LOOP. -/
def slotLoop : Fin 82 := 0
/-- Slot 1, QUEUE. -/
def slotQueue : Fin 82 := 1
/-- CHANGE FAILED, 2 + 4c. -/
def slotChangeFailed (c : Fin 4) : Fin 82 := ⟨2 + 4 * c.val, by omega⟩
/-- SWITCH FAILED, 3 + 4c. -/
def slotSwitchFailed (c : Fin 4) : Fin 82 := ⟨3 + 4 * c.val, by omega⟩
/-- RUNOUT, 4 + 4c. -/
def slotRunout (c : Fin 4) : Fin 82 := ⟨4 + 4 * c.val, by omega⟩
/-- MARK MISSING, 5 + 4c. -/
def slotMarkMissing (c : Fin 4) : Fin 82 := ⟨5 + 4 * c.val, by omega⟩
/-- BREAK, 18 + 8p. -/
def slotBreak (p : Fin 8) : Fin 82 := ⟨18 + 8 * p.val, by omega⟩
/-- LAMP, 19 + 8p. -/
def slotLamp (p : Fin 8) : Fin 82 := ⟨19 + 8 * p.val, by omega⟩
/-- HALT, 20 + 8p. -/
def slotHalt (p : Fin 8) : Fin 82 := ⟨20 + 8 * p.val, by omega⟩
/-- SILENT, 21 + 8p. -/
def slotSilent (p : Fin 8) : Fin 82 := ⟨21 + 8 * p.val, by omega⟩
/-- STRIKE, 22 + 8p. -/
def slotStrike (p : Fin 8) : Fin 82 := ⟨22 + 8 * p.val, by omega⟩
/-- STOP, 23 + 8p. -/
def slotStop (p : Fin 8) : Fin 82 := ⟨23 + 8 * p.val, by omega⟩
/-- DWELL, 24 + 8p. -/
def slotDwell (p : Fin 8) : Fin 82 := ⟨24 + 8 * p.val, by omega⟩
/-- RULE, 25 + 8p. -/
def slotRule (p : Fin 8) : Fin 82 := ⟨25 + 8 * p.val, by omega⟩

/-- The class code of a slot (table of 9.1). -/
def classOf (k : Fin 82) : Fin 14 :=
  if h : k.val < 2 then ⟨k.val, by omega⟩
  else if k.val < 18 then ⟨2 + (k.val - 2) % 4, by omega⟩
  else ⟨6 + (k.val - 18) % 8, by omega⟩

/-- What a slot becomes by a raise while its class is enabled (table of R151). A RULE slot raised
while under service keeps the severity it was taken with. -/
def Slot.raised (sweep : Byte) (value : Option Int) (rule : Option (Fin 16 × Severity)) (x : Slot) :
    Slot :=
  if x.pending then { x with repeated := true }
  else
    { x with
      pending := true
      noticed := false
      repeated := false
      sweep := some sweep
      value := value
      rule :=
        match rule, x.underService, x.rule with
        | some (i, _), true, some (_, taken) => some (i, taken)
        | new, _, _ => new }

/-- R151: a raise is taken at the moment it reaches the ladder. -/
def raise (e : Env) (k : Fin 82) (value : Option Int) (rule : Option (Fin 16 × Severity))
    (r : Run) : Run :=
  if e.setup.enables.get (classOf k) then r.modSlot k (Slot.raised e.sweep value rule) else r

/-- A raise of an area or chain slot: it carries the sweep number alone (R122). -/
def raiseChain (e : Env) (k : Fin 82) (r : Run) : Run := raise e k none none r

/-- A raise of a position slot: it carries the position value as it stands (R45, R62). -/
def raisePosition (e : Env) (k : Fin 82) (p : Fin 8) (r : Run) : Run :=
  raise e k (some (r.motions.get p).value) none r

/-! ### The notice queue (R158, R159) -/

/-- A notice joins as the youngest while the queue holds fewer than 16; else it is discarded and
QUEUE is raised. -/
def queueNotice (e : Env) (b : NoticeBody) (r : Run) : Run :=
  if r.notices.length < Config.noticeCapacity then
    { r with notices := r.notices ++ [{ sweep := e.sweep, body := b }] }
  else raiseChain e slotQueue r

/-! ### The order queue (R132 to R134) -/

def Order.family : Order → Family
  | .start | .stop => .motion
  | .lampUp | .lampDown => .lamp
  | .dowserOpen | .dowserClose => .dowser
  | .select _ => .select

/-- The order kind codes 1 to 7 (07, section 7.1). -/
def Order.code : Order → Nat
  | .start => 1 | .stop => 2 | .lampUp => 3 | .lampDown => 4
  | .dowserOpen => 5 | .dowserClose => 6 | .select _ => 7

/-- Whether an entry is of this family for this station. -/
def OrderEntry.holds (st : Station) (f : Family) (x : OrderEntry) : Bool :=
  x.station == st && x.order.family == f

/-- R132: the order replaces in place the entry of its family for the station, or joins as the
youngest. -/
def enqueueOrder (st : Station) (o : Order) (q : List OrderEntry) : List OrderEntry :=
  if q.any (OrderEntry.holds st o.family) then
    q.map (fun x => if x.holds st o.family then { station := st, order := o } else x)
  else q ++ [{ station := st, order := o }]

def queueOrder (st : Station) (o : Order) (r : Run) : Run :=
  { r with orders := enqueueOrder st o r.orders }

/-- An order for the station of a position, if it is defined (R132). -/
def queueFor (e : Env) (p : Fin 8) (o : Order) (r : Run) : Run :=
  match e.setup.positions.get p with
  | some d => queueOrder d.station o r
  | none => r

/-- R133: the entry leaves only if it holds that order kind. -/
def withdrawOrder (st : Station) (kind : Nat) (r : Run) : Run :=
  { r with orders := r.orders.filter (fun x => !(x.station == st && x.order.code == kind)) }

/-- R133: every entry for a station leaves. -/
def withdrawStation (st : Station) (r : Run) : Run :=
  { r with orders := r.orders.filter (fun x => x.station != st) }

/-- R130: desk supersession. -/
def supersede (st : Station) (f : Family) (r : Run) : Run :=
  { r with orders := r.orders.filter (fun x => !x.holds st f) }

/-- R133: a queued SELECT replaced in place by one with another argument. -/
def replaceSelect (st : Station) (i : Input) (r : Run) : Run :=
  { r with orders :=
      r.orders.map (fun x => if x.holds st .select then { station := st, order := .select i } else x) }

def OrderEntry.isSelect (x : OrderEntry) : Bool := x.order.family == .select

/-- R134: the oldest SELECT entry, else the oldest entry. -/
def chooseOrder (q : List OrderEntry) : Option OrderEntry :=
  match q.find? OrderEntry.isSelect with
  | some x => some x
  | none => q.head?

/-- R134: the chosen entry leaves the queue. -/
def removeOrder (x : OrderEntry) (r : Run) : Run := { r with orders := r.orders.erase x }

/-! ### Definitions by station (R2) -/

/-- The defined position at a station. -/
def positionAt (su : Setup) (st : Station) : Option (Fin 8) :=
  allPositions.find? (fun p => (su.positions.get p).any (fun d => d.station == st))

/-- The defined chain with this multiplexer station. -/
def chainAt (su : Setup) (st : Station) : Option (Fin 4) :=
  allChains.find? (fun c => (su.chains.get c).any (fun d => d.station == st))

end Sys2Proof.Machine
end

