-- ==== Sys2Proof/Machine/Flags.lean ====
section
/-! DEFINITION. The derived conditions: pairs, roles, on air, PRIMED and READY, runout, the cue list,
locking, rank and masking, the alarm contact. None of them is held; each is worked from the state. -/

namespace Sys2Proof.Machine

/-! ### Motion -/

/-- RUNUP or LOCKED. -/
def Motion.running : Motion → Bool
  | .runup | .locked => true
  | _ => false

/-- R65: moving is RUNUP, LOCKED or STOPPING. -/
def Motion.moving : Motion → Bool
  | .runup | .locked | .stopping => true
  | _ => false

/-- STOPPED or UNREPORTED (R22, R75, R77, R123). -/
def Motion.atRest : Motion → Bool
  | .stopped | .unreported => true
  | _ => false

def definedPos (su : Setup) (p : Fin 8) : Bool := (su.positions.get p).isSome

def motionOf (r : Run) (p : Fin 8) : Motion := (r.motions.get p).motion

/-- BROKEN or SILENT (R86, R87, R91). -/
def failed (r : Run) (p : Fin 8) : Bool :=
  motionOf r p == .broken || (r.motions.get p).silent

/-! ### Signals of a report: bit 0 FILM to bit 7 DOT (11, section 11.2) -/

def sigFilm (x : Byte) : Bool := x.getLsbD 0
def sigMotor (x : Byte) : Bool := x.getLsbD 1
def sigSpeed (x : Byte) : Bool := x.getLsbD 2
def sigLamp (x : Byte) : Bool := x.getLsbD 3
def sigDowser (x : Byte) : Bool := x.getLsbD 4
def sigDot (x : Byte) : Bool := x.getLsbD 7

/-! ### Chains, ports and pairs (R101) -/

def Port.input : Port → Input
  | .zero => .port0
  | .one => .port1

def Port.other : Port → Port
  | .zero => .one
  | .one => .zero

/-- The port an input names, if it is a projector input. -/
def Input.port : Input → Option Port
  | .port0 => some .zero
  | .port1 => some .one
  | .caption | .black => none

def ChainDef.at (d : ChainDef) : Port → Option (Fin 8)
  | .zero => d.port0
  | .one => d.port1

/-- The position at a port of a defined chain. -/
def portPosition (su : Setup) (c : Fin 4) (x : Port) : Option (Fin 8) :=
  (su.chains.get c).bind (fun d => d.at x)

/-- The port of chain c that holds p. -/
def portIn (su : Setup) (p : Fin 8) (c : Fin 4) : Option (Fin 4 × Port) :=
  match su.chains.get c with
  | none => none
  | some d =>
    if d.port0 = some p then some (c, .zero)
    else if d.port1 = some p then some (c, .one)
    else none

/-- The chain and port of which p is a port position. -/
def chainOf (su : Setup) (p : Fin 8) : Option (Fin 4 × Port) := allChains.findSome? (portIn su p)

/-- The positions at a chain's ports, port 0 first. -/
def portPositions (su : Setup) (c : Fin 4) : List (Fin 8) :=
  (portPosition su c .zero).toList ++ (portPosition su c .one).toList

/-- R101: both ports hold defined positions of equal gauge and equal rate. -/
def pairValid (su : Setup) (c : Fin 4) : Bool :=
  match portPosition su c .zero, portPosition su c .one with
  | some a, some b =>
    match su.positions.get a, su.positions.get b with
    | some x, some y => x.gauge == y.gauge && x.rate == y.rate
    | _, _ => false
  | _, _ => false

/-- R80: p's partner, while p is a port position of a chain whose pair is valid. -/
def partnerOf (su : Setup) (p : Fin 8) : Option (Fin 8) :=
  match chainOf su p with
  | some (c, x) => if pairValid su c then portPosition su c x.other else none
  | none => none

/-- R101: the caption where the chain has one, black otherwise. -/
def fallbackInput (su : Setup) (c : Fin 4) : Input :=
  match su.chains.get c with
  | some d => if d.caption then .caption else .black
  | none => .black

/-! ### On air and roles (R102) -/

/-- The chain's on-air position. -/
def onAirPosition (su : Setup) (r : Run) (c : Fin 4) : Option (Fin 8) :=
  match (r.chains.get c).observed.bind Input.port with
  | none => none
  | some x =>
    match portPosition su c x with
    | some p => if definedPos su p then some p else none
    | none => none

def isOnAir (su : Setup) (r : Run) (p : Fin 8) : Bool :=
  match chainOf su p with
  | some (c, _) => onAirPosition su r c == some p
  | none => false

/-- R102, in its order: FAULTED, ON AIR, NEXT, IDLE. An undefined position is shown IDLE. -/
def roleOf (su : Setup) (r : Run) (p : Fin 8) : Role :=
  if !definedPos su p then .idle
  else if failed r p || (r.lamps.get p).fault then .faulted
  else
    match chainOf su p with
    | none => .idle
    | some (c, _) =>
      match onAirPosition su r c with
      | none => .idle
      | some a => if a = p then .onAir else if pairValid su c then .next else .idle

/-- The NEXT position of a chain: the other port position, where its role is NEXT (R117). -/
def nextOf (su : Setup) (r : Run) (c : Fin 4) : Option (Fin 8) :=
  (portPositions su c).find? (fun p => roleOf su r p == .next)

/-- R104. -/
def derivedState (su : Setup) (r : Run) (c : Fin 4) : ChainState :=
  match (r.chains.get c).observed with
  | none => .unknown
  | some i =>
    match i.port with
    | none => .dark
    | some x =>
      match portPosition su c x.other with
      | some q => if definedPos su q && (motionOf r q).running then .double else .single
      | none => .single

/-- SINGLE or DOUBLE. -/
def ChainState.onFilm : ChainState → Bool
  | .single | .double => true
  | _ => false

def chainState (r : Run) (c : Fin 4) : ChainState := (r.chains.get c).state

/-- R118: the on-air position is FAULTED, or its motion is neither RUNUP nor LOCKED. -/
def lossStands (su : Setup) (r : Run) (c : Fin 4) : Bool :=
  match onAirPosition su r c with
  | some p => roleOf su r p == .faulted || !(motionOf r p).running
  | none => false

/-! ### PRIMED and READY (R60) -/

def primedNow (su : Setup) (r : Run) (p : Fin 8) : Bool :=
  let m := r.motions.get p
  definedPos su p && sigFilm m.signals && (r.lamps.get p).lamp == .lit && m.motion == .stopped
    && m.referenced && !failed r p

def readyNow (r : Run) (p : Fin 8) : Bool :=
  let m := r.motions.get p
  let l := r.lamps.get p
  m.motion == .locked && l.lamp == .lit && l.dowser == .opened && !m.silent

/-- PRIMED and READY as last published: what the other blocks know (R61, log 31). -/
def primed (r : Run) (p : Fin 8) : Bool := (r.lamps.get p).primed
def ready (r : Run) (p : Fin 8) : Bool := (r.lamps.get p).ready

/-! ### Runout (R110, R119) -/

/-- R119: referenced, last picture present, value at or above last picture plus runout guard. -/
def pastRunout (su : Setup) (r : Run) (c : Fin 4) (p : Fin 8) : Bool :=
  let m := r.motions.get p
  match (su.reels.get p).lastPicture with
  | some lp => m.referenced && decide (lp + ((su.modes.get c).runoutGuard : Int) ≤ m.value)
  | none => false

/-- R110: referenced, last picture present, value above it. -/
def pastLastPicture (su : Setup) (r : Run) (p : Fin 8) : Bool :=
  let m := r.motions.get p
  match (su.reels.get p).lastPicture with
  | some lp => m.referenced && decide (lp < m.value)
  | none => false

/-! ### Cue lists and locking (R64 to R66) -/

/-- The records one slot adds to a cue list. -/
def slotRecords (su : Setup) : Option (Fin 32) → List (Option Cue)
  | none => []
  | some g => (su.pages.get g).toList

/-- R64: the pages of the slots in slot order, the records of each in record order. -/
def cueList (su : Setup) (p : Fin 8) : List (Option Cue) :=
  ((su.reels.get p).slots.toList.map (slotRecords su)).flatten

/-- The list length, 8 for each slot that holds a page. -/
def listLength (su : Setup) (p : Fin 8) : Nat := (cueList su p).length

/-- The slot of p's reel record that holds page g. -/
def slotHolding (su : Setup) (g : Fin 32) (p : Fin 8) : Option (Fin 4) :=
  allChains.find? (fun k => (su.reels.get p).slots.get k == some g)

/-- Where a page is mapped: the position and the slot (R70). -/
def pageMapping (su : Setup) (g : Fin 32) : Option (Fin 8 × Fin 4) :=
  allPositions.findSome? (fun p => (slotHolding su g p).map (fun k => (p, k)))

/-- R64: a record's index is 8 times the page-holding slots before its own, plus its number. -/
def recordIndex (su : Setup) (p : Fin 8) (k : Fin 4) (rec : Fin 8) : Nat :=
  8 * ((su.reels.get p).slots.toList.take k.val).countP Option.isSome + rec.val

/-- R65: a position's reel record is locked while it moves. -/
def reelLocked (r : Run) (p : Fin 8) : Bool := (motionOf r p).moving

/-- R65: a page is locked while a moving position holds it. -/
def pageLocked (su : Setup) (r : Run) (g : Fin 32) : Bool :=
  match pageMapping su g with
  | some (p, _) => reelLocked r p
  | none => false

/-- R81, as the scanner knows the reel: until it has taken a loss of reference, the reel is scanned
(R93, log 30). -/
def scanned (su : Setup) (r : Run) (p : Fin 8) : Bool :=
  definedPos su p && !(cueList su p).isEmpty
    && ((r.motions.get p).referenced || r.handoffs.contains (.cueUnreferenced p))

/-! ### Rank, masking and the contact (R150, R153, R160) -/

/-- R150: the severity of a slot; the RULE slot's is captured. -/
def severityOf (r : Run) (k : Fin 82) : Severity :=
  match (classOf k).val with
  | 1 | 5 | 10 | 11 | 12 => .minor
  | 13 =>
    match (r.slots.get k).rule with
    | some (_, s) => s
    | none => .minor
  | _ => .major

/-- R150: every MAJOR slot above every MINOR one; within a severity the lower number. -/
def ranksAbove (r : Run) (a b : Fin 82) : Bool :=
  match severityOf r a, severityOf r b with
  | .major, .minor => true
  | .minor, .major => false
  | _, _ => a.val < b.val

/-- R153. -/
def masked (r : Run) (k : Fin 82) : Bool :=
  match r.stack with
  | [] => false
  | t :: _ => !ranksAbove r k t

def allSlots : List (Fin 82) := List.finRange 82

/-- The highest-ranked slot that meets a condition (R154, R155). -/
def highest (r : Run) (f : Fin 82 → Bool) : Option (Fin 82) :=
  match allSlots.find? (fun k => f k && severityOf r k == .major) with
  | some k => some k
  | none => allSlots.find? f

/-- R160: some MAJOR slot is pending or under service. -/
def majorStands (r : Run) : Bool :=
  allSlots.any (fun k =>
    ((r.slots.get k).pending || (r.slots.get k).underService) && severityOf r k == .major)

/-- R160 and R4: the contact is asserted exactly while a MAJOR slot stands or the monitor is LOST,
and open while RESET is held or the supply is lost. -/
def contactAsserted (po : LoopPort) (r : Run) : Bool :=
  po.powered && !po.resetHeld && (majorStands r || po.monitor == .lost)

end Sys2Proof.Machine
end

