-- ==== Sys2Proof/Machine/Lamp.lean ====
section
/-! DEFINITION. The Lamp Unit: the lamp machine, the strike queue and gate, dwell, PRIMED and READY
(03, R46 to R62). -/

namespace Sys2Proof.Machine

/-! ### PRIMED and READY (R60, R61) -/

/-- The condition event for the reel of the position's partner (R61). -/
def conditionEvent (e : Env) (p : Fin 8) : List Handoff :=
  match partnerOf e.setup p with
  | some q => [.cueEvent q .change]
  | none => []

/-- R61: record the new values; each change is handed to the reel of the partner. -/
def publish (e : Env) (p : Fin 8) (newPrimed newReady : Bool) (r : Run) : Run :=
  let changes :=
    (if newPrimed != primed r p then conditionEvent e p else [])
      ++ (if newReady != ready r p then conditionEvent e p else [])
  (r.modLamp p (fun l => { l with primed := newPrimed, ready := newReady })).handAll changes

/-- R60: work both conditions afresh. -/
def workConditions (e : Env) (p : Fin 8) (r : Run) : Run :=
  publish e p (primedNow e.setup r p) (readyNow r p) r

/-! ### The strike gate (R53, R54, R56) -/

/-- R54: an entry is eligible while its position's lamp-down pending is clear. -/
def eligible (r : Run) (x : StrikeEntry) : Bool := !(r.lamps.get x.position).downPending

/-- R54: the oldest eligible URGENT entry, else the oldest eligible ORDINARY one. -/
def nextStrike (r : Run) : Option StrikeEntry :=
  match r.strikeQueue.find? (fun x => eligible r x && x.cls == .urgent) with
  | some x => some x
  | none => r.strikeQueue.find? (eligible r)

/-- R54: what a grant does. -/
def grantTo (e : Env) (p : Fin 8) (r : Run) : Run :=
  workConditions e p
    (queueFor e p .lampUp
      (((r.leaveStrike p).modLamp p
        (fun l => { l with lamp := .striking, strikeTimer := some 0 })).setGate (.striking p)))

/-- R54: a FREE gate looks for an eligible entry. -/
def offerGrant (e : Env) (r : Run) : Run :=
  match r.gate with
  | .free =>
    match nextStrike r with
    | some x => grantTo e x.position r
    | none => r
  | .striking _ | .gap _ => r

/-- The gate becomes FREE and looks for an eligible entry (R56). -/
def freeGate (e : Env) (r : Run) : Run := offerGrant e (r.setGate .free)

/-- R56: the gate enters GAP; with Stagger gap 0 it is FREE at once. -/
def enterGap (e : Env) (r : Run) : Run :=
  if e.setup.params.staggerGap = 0 then freeGate e r else r.setGate (.gap 0)

/-- The gate leaves STRIKING if it is striking this position (R46, R50, R51, R55). -/
def endStrikeOf (e : Env) (p : Fin 8) (r : Run) : Run :=
  if r.gate = .striking p then enterGap e r else r

/-- R53. Made within another block's action, the request is taken at once, ahead of the hand-offs that wait for
the Lamp Unit (log 48). -/
def strikeRequest (e : Env) (p : Fin 8) (cls : StrikeClass) (r : Run) : Run :=
  if definedPos e.setup p && (r.lamps.get p).lamp == .dark then
    offerGrant e
      ((r.joinStrike { position := p, cls := cls }).modLamp p (fun l => { l with lamp := .queued }))
  else r

/-! ### LAMP DOWN (R51) -/

/-- The table of R51 on the lamp record. -/
def LampRec.takenDown (l : LampRec) : LampRec :=
  match l.lamp with
  | .unreported => l
  | .dark => { l with downPending := true }
  | .queued | .lit => { l with lamp := .dark, downPending := true }
  | .striking => { l with lamp := .dark, downPending := true, strikeTimer := none }
  | .settling => { l with lamp := .dark, downPending := true, settle := none }

/-- R51: a LAMP DOWN taken. A QUEUED lamp's entry leaves the queue; a STRIKING lamp's strike is
cancelled and the gate enters GAP. -/
def lampDownTaken (e : Env) (p : Fin 8) (r : Run) : Run :=
  let was := (r.lamps.get p).lamp
  let r1 := r.modLamp p LampRec.takenDown
  let r2 := if was = .queued then r1.leaveStrike p else r1
  let r3 := if was = .striking then endStrikeOf e p r2 else r2
  workConditions e p r3

/-- R51: a LAMP DOWN cue action: taken when received, then queued. The Lamp Unit takes it within the Cue Scanner's
action, ahead of the hand-offs that wait for it (log 48). -/
def lampDownRequest (e : Env) (p : Fin 8) (r : Run) : Run :=
  queueFor e p .lampDown (lampDownTaken e p r)

/-! ### Reports (R47 to R50) -/

/-- A lamp enters SETTLING; with Lamp settle 0 it is LIT at once (R49, R50, R52). Lamp fault is
cleared. -/
def LampRec.settled (limit : Nat) (l : LampRec) : LampRec :=
  if limit = 0 then { l with lamp := .lit, strikeTimer := none, settle := none, fault := false }
  else { l with lamp := .settling, strikeTimer := none, settle := some 0, fault := false }

/-- A lamp enters SETTLING; a lamp fault cleared is told to the Chain Unit (R61). -/
def enterSettling (e : Env) (p : Fin 8) (r : Run) : Run :=
  let was := (r.lamps.get p).fault
  let r1 := r.modLamp p (LampRec.settled e.setup.params.lampSettle)
  if was then r1.hand (.chainLampFault p) else r1

/-- R50: an unordered lamp loss. The Chain Unit is handed the setting of lamp fault (R61) before LAMP as a fault
of the position (log 43). -/
def lampLost (e : Env) (p : Fin 8) (r : Run) : Run :=
  let r1 := r.modLamp p (fun l => { l with lamp := .dark, settle := none, fault := true })
  ((raisePosition e (slotLamp p) p r1).hand (.chainLampFault p)).hand (.chainFault p)

/-- R48 to R50: the lamp machine takes the LAMP signal. -/
def lampSignal (e : Env) (p : Fin 8) (lamp : Bool) (r : Run) : Run :=
  let l := r.lamps.get p
  match l.lamp, lamp with
  | .unreported, true => r.modLamp p (fun l => { l with lamp := .lit })
  | .unreported, false => r.modLamp p (fun l => { l with lamp := .dark })
  | .dark, true => if l.downPending then r else enterSettling e p r
  | .queued, true => if l.downPending then r else enterSettling e p (r.leaveStrike p)
  | .dark, false | .queued, false => r
  | .striking, true => endStrikeOf e p (enterSettling e p r)
  | .striking, false => r
  | .settling, true | .lit, true => r
  | .settling, false | .lit, false => lampLost e p r

/-- R47: the four steps of a report, and the offer of a grant that a cleared lamp-down pending
brings. -/
def takeLampReport (e : Env) (p : Fin 8) (lamp dowser : Bool) (r : Run) : Run :=
  let r1 := lampSignal e p lamp r
  let cleared := !lamp && (r1.lamps.get p).downPending
  let r2 := r1.modLamp p (fun l =>
    { l with
      downPending := lamp && l.downPending
      dowser := if dowser then .opened else .closed })
  let r3 := workConditions e p r2
  if cleared && (r3.lamps.get p).lamp == .queued then offerGrant e r3 else r3

/-! ### Orders taken (R58) -/

/-- R58: a DOWSER CLOSE taken sets the dwell counter to 0. -/
def dowserCloseTaken (p : Fin 8) (r : Run) : Run := r.modLamp p (fun l => { l with dwell := 0 })

/-! ### Sweep ends (R52, R55, R56, R59) -/

/-- R59: lamp SETTLING or LIT, dowser OPEN, motion STOPPED. -/
def dwelling (r : Run) (p : Fin 8) : Bool :=
  let l := r.lamps.get p
  (l.lamp == .settling || l.lamp == .lit) && l.dowser == .opened && motionOf r p == .stopped

/-- The strike timer's count at a sweep end (R55). -/
def LampRec.countStrike (l : LampRec) : LampRec :=
  if l.lamp = .striking then { l with strikeTimer := l.strikeTimer.map (· + 1) } else l

/-- The settle counter's count at a sweep end (R52). -/
def LampRec.countSettle (l : LampRec) : LampRec :=
  if l.lamp = .settling then { l with settle := l.settle.map (· + 1) } else l

/-- The dwell counter at a sweep end, before its limit is looked at (R59). -/
def countDwell (e : Env) (p : Fin 8) (r : Run) : Run :=
  r.modLamp p (fun l =>
    { l with dwell := if definedPos e.setup p && dwelling r p then l.dwell + 1 else 0 })

/-- The gap counter's count at a sweep end (R56). -/
def countGap (r : Run) : Run :=
  match r.gate with
  | .gap n => r.setGate (.gap (n + 1))
  | .free | .striking _ => r

def reached (t : Option Nat) (limit : Nat) : Bool := t.any (fun n => decide (limit ≤ n))

/-- The strike timer stands at or above Strike limit (R55). -/
def strikeIsDue (e : Env) (p : Fin 8) (r : Run) : Bool :=
  let l := r.lamps.get p
  l.lamp == .striking && reached l.strikeTimer e.setup.params.strikeLimit

def settleIsDue (e : Env) (p : Fin 8) (r : Run) : Bool :=
  let l := r.lamps.get p
  l.lamp == .settling && reached l.settle e.setup.params.lampSettle

def gapIsDue (e : Env) (r : Run) : Bool :=
  match r.gate with
  | .gap n => decide (e.setup.params.staggerGap ≤ n)
  | .free | .striking _ => false

def dwellIsDue (e : Env) (p : Fin 8) (r : Run) : Bool :=
  decide (e.setup.params.dwellLimit ≤ (r.lamps.get p).dwell)

/-- R55: a strike expiry. The lamp order follows the on-air position (R102). -/
def expireStrike (e : Env) (p : Fin 8) (r : Run) : Run :=
  if strikeIsDue e p r then
    let r1 := raisePosition e (slotStrike p) p r
    let r2 := r1.modLamp p (fun l => { l with lamp := .dark, strikeTimer := none })
    let r3 := endStrikeOf e p r2
    let r4 :=
      if isOnAir e.setup r p then
        match e.setup.positions.get p with
        | some d => withdrawOrder d.station Order.lampUp.code r3
        | none => r3
      else lampDownRequest e p r3
    workConditions e p r4
  else r

/-- R52: a settle complete. -/
def expireSettle (e : Env) (p : Fin 8) (r : Run) : Run :=
  if settleIsDue e p r then
    workConditions e p (r.modLamp p (fun l => { l with lamp := .lit, settle := none }))
  else r

/-- R56: the gap has run out. -/
def expireGap (e : Env) (r : Run) : Run := if gapIsDue e r then freeGate e r else r

/-- R59: a dwell expiry. -/
def expireDwell (e : Env) (p : Fin 8) (r : Run) : Run :=
  if dwellIsDue e p r then
    (raisePosition e (slotDwell p) p (queueFor e p .dowserClose r)).modLamp p
      (fun l => { l with dwell := 0 })
  else r

/-! ### Redefinition (R46) -/

/-- R46: the lamp record restarted, the entry taken out of the queue, the gate sent into GAP; a
PRIMED or READY that was true is published false. -/
def restartLamp (e : Env) (p : Fin 8) (r : Run) : Run :=
  let r1 := publish e p false false r
  let r2 := r1.modLamp p (fun _ => LampRec.restarted)
  endStrikeOf e p (r2.leaveStrike p)

end Sys2Proof.Machine
end

