-- ==== Sys2Proof/Machine/Motion.lean ====
section
/-! DEFINITION. The Motion Tracker: reports, the motion machine, missing reports and resync (02, R20 to
R45). -/

namespace Sys2Proof.Machine

/-! ### What the tracker hands on (R44) -/

/-- R80: the partner's reel is told of a change of p's motion state or SILENT flag. -/
def partnerEvent (e : Env) (p : Fin 8) : List Handoff := conditionEvent e p

/-- R44: a change of motion state or of the SILENT flag goes to the Lamp Unit, the Chain Unit and the
Cue Scanner. `moved` is whether the motion state changed. -/
def handChange (e : Env) (p : Fin 8) (moved : Bool) (r : Run) : Run :=
  r.handAll ([.lampConditions p, .chainMotion p moved] ++ partnerEvent e p)

/-- Hand on a change against what the position showed before. -/
def handIfChanged (e : Env) (p : Fin 8) (before : MotionRec) (r : Run) : Run :=
  let m := r.motions.get p
  let moved := m.motion != before.motion
  if moved || m.silent != before.silent then handChange e p moved r else r

/-- R29: the referenced flag is cleared; where it was set, the loss goes to the Cue Scanner. -/
def loseReference (p : Fin 8) (r : Run) : Run :=
  if (r.motions.get p).referenced then
    (r.modMotion p (fun m => { m with referenced := false })).handAll
      [.cueUnreferenced p, .lampConditions p]
  else r

/-- R28, R39: unreferenced with an UNREF notice, where it was referenced. -/
def unreference (e : Env) (p : Fin 8) (why : UnrefReason) (r : Run) : Run :=
  let m := r.motions.get p
  if m.referenced then queueNotice e (.unref p why m.value) (loseReference p r) else r

/-! ### Entries to motion states -/

/-- To RUNUP with the runup timer at 0, from any state (R31, R34, R36, R37). -/
def MotionRec.toRunup (m : MotionRec) : MotionRec :=
  { m with motion := .runup, runup := some 0, stop := .idle, stall := 0, stallFlag := false }

/-- To STOPPING with the stop timer at 0 (R32, R33, R34, R35). -/
def MotionRec.toStopping (m : MotionRec) : MotionRec :=
  { m with motion := .stopping, runup := none, stop := .running 0, stall := 0, stallFlag := false }

/-- To LOCKED with the stall count at 0 (R33). -/
def MotionRec.toLocked (m : MotionRec) : MotionRec :=
  { m with motion := .locked, runup := none, stall := 0 }

/-- To STOPPED (R36, R40). -/
def MotionRec.toStopped (m : MotionRec) : MotionRec := { m with motion := .stopped, stop := .idle }

/-- To BROKEN (R39). -/
def MotionRec.toBroken (m : MotionRec) : MotionRec :=
  { m with motion := .broken, runup := none, stall := 0, stallFlag := false }

/-- R39: everything entry to BROKEN does; the fault is handed before the change of motion (log 32). -/
def enterBroken (e : Env) (p : Fin 8) (r : Run) : Run :=
  let r1 := raisePosition e (slotBreak p) p (r.modMotion p MotionRec.toBroken)
  let r2 := queueFor e p .dowserClose (queueFor e p .stop r1)
  (unreference e p .brk r2).hand (.chainFault p)

/-- R33, R34: an unordered stop. -/
def unorderedStop (e : Env) (p : Fin 8) (r : Run) : Run :=
  (raisePosition e (slotHalt p) p (r.modMotion p MotionRec.toStopping)).hand (.chainFault p)

/-! ### The five steps of a report (R25) -/

/-- R42: the gap step of a resync on the record. -/
def MotionRec.resynced (m : MotionRec) : MotionRec :=
  { m with miss := 0, resyncDue := false, stall := 0, stallFlag := false, silent := false }

/-- First, the gap (R25, R42). -/
def gapStep (e : Env) (p : Fin 8) (r : Run) : Run :=
  let m := r.motions.get p
  if m.silent || m.resyncDue then
    let r1 := r.modMotion p MotionRec.resynced
    if m.silent then queueNotice e (.clear p .silent) r1 else r1
  else r.modMotion p (fun m => { m with miss := 0 })

/-- What the count step finds (R26 to R28). -/
inductive Count
  | first | still | advance (frames : Nat) | jump
  deriving DecidableEq, Repr

/-- R26 to R28: the delta modulo 65,536. -/
def countOf (last : Option (BitVec 16)) (now : BitVec 16) : Count :=
  match last with
  | none => .first
  | some l =>
    let d := (now - l).toNat
    if d = 0 then .still else if d < Config.jumpDelta then .advance d else .jump

/-- R27: the position value stops at the top of its range. -/
def advanceValue (v : Int) (frames : Nat) : Int := min (v + frames) Config.maxPosition

/-- Second, the count (R26 to R28). -/
def countStep (e : Env) (p : Fin 8) (now : BitVec 16) (k : Count) (r : Run) : Run :=
  let r1 := r.modMotion p (fun m => { m with lastCount := some now })
  match k with
  | .first | .still => r1
  | .advance d => r1.modMotion p (fun m => { m with value := advanceValue m.value d })
  | .jump => unreference e p .jump r1

/-- A signal is lost when the last signals show it and the report does not (02, 2.4). -/
def lost (sig : Byte → Bool) (last now : Byte) : Bool := sig last && !sig now

/-- R30: adoption. -/
def MotionRec.adopted (now : Byte) (m : MotionRec) : MotionRec :=
  if sigMotor now then
    if sigSpeed now then { m with motion := .locked } else { m with motion := .runup, runup := some 0 }
  else { m with motion := .stopped }

/-- R33: a report in RUNUP. -/
def reportInRunup (e : Env) (p : Fin 8) (last now : Byte) (r : Run) : Run :=
  if lost sigFilm last now then enterBroken e p r
  else if lost sigMotor last now then unorderedStop e p r
  else if sigSpeed now then r.modMotion p MotionRec.toLocked
  else r

/-- R34: a report in LOCKED. -/
def reportInLocked (e : Env) (p : Fin 8) (last now : Byte) (r : Run) : Run :=
  if lost sigFilm last now then enterBroken e p r
  else if lost sigMotor last now then unorderedStop e p r
  else if !sigSpeed now && sigMotor now then r.modMotion p MotionRec.toRunup
  else r

/-- R36: a report in STOPPING. -/
def reportInStopping (p : Fin 8) (last now : Byte) (k : Count) (r : Run) : Run :=
  if !sigMotor now && k == .still then r.modMotion p MotionRec.toStopped
  else if sigMotor now && !sigMotor last then r.modMotion p MotionRec.toRunup
  else r

/-- R40: a report in BROKEN. -/
def reportInBroken (e : Env) (p : Fin 8) (now : Byte) (r : Run) : Run :=
  if sigFilm now && !sigMotor now then
    queueNotice e (.clear p .brk) (r.modMotion p MotionRec.toStopped)
  else r

/-- Third, the motion (R30, R33, R34, R36, R37, R40). -/
def motionStep (e : Env) (p : Fin 8) (now : Byte) (k : Count) (r : Run) : Run :=
  let last := (r.motions.get p).signals
  match motionOf r p with
  | .unreported => if k = .first then r.modMotion p (MotionRec.adopted now) else r
  | .stopped => if sigMotor now then r.modMotion p MotionRec.toRunup else r
  | .runup => reportInRunup e p last now r
  | .locked => reportInLocked e p last now r
  | .stopping => reportInStopping p last now k r
  | .broken => reportInBroken e p now r

/-- R38: one more report of a LOCKED position that brought no film. -/
def countStall (e : Env) (p : Fin 8) (r : Run) : Run :=
  let n := (r.motions.get p).stall + 1
  let w := e.setup.params.motionWindow
  let r1 := r.modMotion p (fun m => { m with stall := n, stallFlag := m.stallFlag || decide (w ≤ n) })
  if 2 * w ≤ n then enterBroken e p r1 else r1

/-- Fourth, the stall window (R38). -/
def stallStep (e : Env) (p : Fin 8) (k : Count) (r : Run) : Run :=
  if motionOf r p = .locked then
    match k with
    | .advance _ => r.modMotion p (fun m => { m with stall := 0, stallFlag := false })
    | .first | .still | .jump => countStall e p r
  else r

/-- R27, R44: whether the count is an advance. -/
def Count.isAdvance : Count → Bool
  | .advance _ => true
  | .first | .still | .jump => false

/-- R44, R119: what a report is handed on as. A change of motion state or of SILENT is handed before it (log
36). -/
def reportHandoffs (p : Fin 8) (now : Byte) (advance : Bool) (judged : Motion) : List Handoff :=
  [.cueReport p (sigDot now) advance]
    ++ (if advance then [.chainAdvance p] else [])
    ++ [.ruleReport p now judged]

/-- R25: a report taken whole. `judged` is the motion after the motion step, by which the rules judge
(R44, log 19). What is handed to one block is handed in this order (log 36). -/
def takeReport (e : Env) (p : Fin 8) (now : Byte) (frames : BitVec 16) (r : Run) : Run :=
  let before := r.motions.get p
  let k := countOf before.lastCount frames
  let r0 := r.hand (.lampReport p (sigLamp now) (sigDowser now))
  let r1 := motionStep e p now k (countStep e p frames k (gapStep e p r0))
  let judged := motionOf r1 p
  let r2 := (stallStep e p k r1).modMotion p (fun m => { m with signals := now })
  let advance := k.isAdvance && (r2.motions.get p).referenced
  (handIfChanged e p before r2).handAll (reportHandoffs p now advance judged)

/-! ### Orders taken (R31, R32) -/

/-- R31. -/
def startTaken (e : Env) (p : Fin 8) (r : Run) : Run :=
  match motionOf r p with
  | .stopped | .stopping => handChange e p true (r.modMotion p MotionRec.toRunup)
  | .runup | .locked | .broken | .unreported => r

/-- R32. -/
def stopTaken (e : Env) (p : Fin 8) (r : Run) : Run :=
  match motionOf r p with
  | .runup | .locked => handChange e p true (r.modMotion p MotionRec.toStopping)
  | .stopped | .stopping | .broken | .unreported => r

/-! ### Sweep ends (R35, R36, R41) -/

/-- R41: a sweep end without a report. -/
def MotionRec.countMiss (m : MotionRec) : MotionRec := { m with miss := min 2 (m.miss + 1) }

/-- R35: the runup timer's count. -/
def MotionRec.countRunup (m : MotionRec) : MotionRec :=
  if m.motion = .runup then { m with runup := m.runup.map (· + 1) } else m

def StopTimer.count : StopTimer → StopTimer
  | .idle => .idle
  | .running n => .running (n + 1)
  | .expired => .expired

/-- R36: the stop timer's count. -/
def MotionRec.countStop (m : MotionRec) : MotionRec :=
  if m.motion = .stopping then { m with stop := m.stop.count } else m

/-- R41: the miss count has reached 2 and SILENT is not yet set. -/
def silentIsDue (e : Env) (p : Fin 8) (r : Run) : Bool :=
  let m := r.motions.get p
  definedPos e.setup p && decide (2 ≤ m.miss) && !m.silent

/-- R35: the runup timer stands at or above Runup limit. -/
def runupIsDue (e : Env) (p : Fin 8) (r : Run) : Bool :=
  let m := r.motions.get p
  m.motion == .runup && reached m.runup e.setup.params.runupLimit

/-- R36: the stop timer stands at or above Stop limit. -/
def stopIsDue (e : Env) (p : Fin 8) (r : Run) : Bool :=
  let m := r.motions.get p
  m.motion == .stopping &&
    match m.stop with
    | .running n => decide (e.setup.params.stopLimit ≤ n)
    | .idle | .expired => false

/-- R41: SILENT. -/
def becomeSilent (e : Env) (p : Fin 8) (r : Run) : Run :=
  if silentIsDue e p r then
    let r1 := raisePosition e (slotSilent p) p (r.modMotion p (fun m => { m with silent := true }))
    handChange e p false (r1.hand (.chainFault p))
  else r

/-- R35: a runup expiry. -/
def expireRunup (e : Env) (p : Fin 8) (r : Run) : Run :=
  if runupIsDue e p r then
    let r1 := queueFor e p .stop (raisePosition e (slotHalt p) p r)
    handChange e p true ((r1.modMotion p MotionRec.toStopping).hand (.chainFault p))
  else r

/-- R36: a stop expiry. -/
def expireStop (e : Env) (p : Fin 8) (r : Run) : Run :=
  if stopIsDue e p r then
    raisePosition e (slotStop p) p (r.modMotion p (fun m => { m with stop := .expired }))
  else r

/-! ### Regain and redefinition (R20, R43) -/

/-- R43: resync due for a defined position whose last frame count is present. -/
def markResync (e : Env) (r : Run) (p : Fin 8) : Run :=
  if definedPos e.setup p && (r.motions.get p).lastCount.isSome then
    r.modMotion p (fun m => { m with resyncDue := true })
  else r

/-- R43: the regain event. -/
def regain (e : Env) (r : Run) : Run := allPositions.foldl (markResync e) r

/-- R20. -/
def restartMotion (p : Fin 8) (r : Run) : Run := r.modMotion p (fun _ => MotionRec.restarted)

end Sys2Proof.Machine
end

