-- ==== Sys2Proof/Machine/Chain.lean ====
section
/-! DEFINITION. The Chain Unit's own operations: deriving the state, switching, the runout guard and
tail stop, holds (06, R104 to R111, R119 to R121). What it does at an event from another block stands
in ChainEvents. -/

namespace Sys2Proof.Machine

/-- R104: derive the state from the observed selection. -/
def derive (e : Env) (c : Fin 4) (r : Run) : Run :=
  r.modChain c (fun x => { x with state := derivedState e.setup r c })

/-- An order for a chain's multiplexer. -/
def queueForChain (e : Env) (c : Fin 4) (o : Order) (r : Run) : Run :=
  match e.setup.chains.get c with
  | some d => queueOrder d.station o r
  | none => r

/-- R111: switch to an input with a kind, in the one way. `keep` is whether the switch is the outcome
of a hold's end, whose hold sweeps it keeps (log 16). -/
def switchTo (e : Env) (c : Fin 4) (i : Input) (k : SwitchKind) (keep : Bool) (r : Run) : Run :=
  (queueForChain e c (.select i) r).modChain c (fun x =>
    { x with
      target := some (i, k)
      fromInput := x.observed
      select := .queued
      switchTimer := some 0
      holdSweeps := if keep then x.holdSweeps else 0
      state := .switching })

/-- R111: a fallback switch. -/
def switchToFallback (e : Env) (c : Fin 4) (keep : Bool) (r : Run) : Run :=
  switchTo e c (fallbackInput e.setup c) .fallback keep r

/-! ### Runout (R119 to R121) -/

/-- R120: raise RUNOUT once. -/
def raiseRunout (e : Env) (c : Fin 4) (p : Fin 8) (r : Run) : Run :=
  if r.runoutRaised.get p then r
  else (raiseChain e (slotRunout c) r).setRunoutRaised p true

/-- R120: the runout guard on an on-air position past runout. -/
def guardRunout (e : Env) (keep : Bool) (c : Fin 4) (p : Fin 8) (r : Run) : Run :=
  match chainState r c with
  | .single | .double =>
    let r1 := raiseRunout e c p r
    if (e.setup.modes.get c).fallback then switchToFallback e c keep r1 else r1
  | .holding => raiseRunout e c p r
  | .switching | .dark | .fallback | .unknown => r

/-- Whether p, at a port, is the target of a switch of kind CHANGE (R116, R121). -/
def isChangeTarget (r : Run) (c : Fin 4) (x : Port) : Bool :=
  chainState r c == .switching && (r.chains.get c).target == some (x.input, .change)

/-- R121: the automatic tail stop of a position off air and past runout. -/
def tailStop (e : Env) (c : Fin 4) (x : Port) (p : Fin 8) (r : Run) : Run :=
  if (motionOf r p).running && !(r.tailStopped.get p) && !isChangeTarget r c x then
    (queueFor e p .dowserClose (queueFor e p .stop r)).setTailStopped p true
  else r

/-- R119: evaluate one port position's runout. -/
def evaluateRunout (e : Env) (keep : Bool) (p : Fin 8) (r : Run) : Run :=
  match chainOf e.setup p with
  | none => r
  | some (c, x) =>
    if !pastRunout e.setup r c p then (r.setRunoutRaised p false).setTailStopped p false
    else if isOnAir e.setup r p then guardRunout e keep c p r
    else tailStop e c x p r

/-- R119: evaluate both port positions, port 0 first (log 38). -/
def evaluatePorts (e : Env) (keep : Bool) (c : Fin 4) (r : Run) : Run :=
  (portPositions e.setup c).foldl (fun r p => evaluateRunout e keep p r) r

/-- R119: the evaluation at a chain's return to SINGLE or DOUBLE from HOLDING or SWITCHING. `back` is the run at the
return, and `r` what has followed of it: where that has put the chain into HOLDING or SWITCHING again, R120 and R121
act as in that state (log 52). -/
def evaluateReturn (e : Env) (keep : Bool) (c : Fin 4) (back r : Run) : Run :=
  if (chainState back c).onFilm then evaluatePorts e keep c r else r

/-! ### Holds (R107, R109, R110) -/

/-- R110: the hold-expiry rule for held position p and held kind. -/
def holdExpiryRule (e : Env) (c : Fin 4) (p : Fin 8) (k : HoldKind) (r : Run) : Run :=
  let r1 := raiseChain e (slotChangeFailed c) r
  if onAirPosition e.setup r1 c != some p then derive e c r1
  else if (e.setup.modes.get c).fallback && (k == .change || pastLastPicture e.setup r1 p) then
    switchToFallback e c true r1
  else
    let r2 := derive e c r1
    evaluateReturn e true c r2 r2

/-- Who asks for a changeover (R111). -/
inductive ChangeoverFrom | requireSet | requireClear | emergency
  deriving DecidableEq, Repr

/-- R111: a changeover request names q, the other port position; p is the position that carries the
picture. -/
def changeover (e : Env) (c : Fin 4) (p q : Fin 8) (origin : ChangeoverFrom) (keep : Bool) (r : Run) :
    Run :=
  match chainOf e.setup q with
  | none => r
  | some (d, x) =>
    if d == c && (chainState r c).onFilm && (r.chains.get c).observed != some x.input then
      if ready r q || origin == .requireClear then switchTo e c x.input .change keep r
      else if origin == .requireSet then holdExpiryRule e c p .change r
      else r
    else r

/-- R111: a planned caption request. -/
def plannedCaption (e : Env) (c : Fin 4) (r : Run) : Run :=
  if (chainState r c).onFilm then switchTo e c (fallbackInput e.setup c) .planned false r else r

/-- The sweeps a hold has lasted: the timer's count, or the hold limit where it had expired (R109). -/
def holdCount (limit : Nat) : HoldTimer → Nat
  | .idle => 0
  | .running n => n
  | .expired => limit

/-- The hold becomes none, its timer idle, and hold sweeps takes the count (R109, R112, R117). -/
def clearHold (e : Env) (c : Fin 4) (r : Run) : Run :=
  r.modChain c (fun x =>
    { x with
      hold := none
      holdTimer := .idle
      holdSweeps := holdCount (e.setup.modes.get c).holdLimit x.holdTimer })

/-- How a hold ends, as the Cue Scanner hands it back (R90, R109). -/
inductive HoldEnd
  | done | late (partner : Fin 8) | heldOut | fault | suppressed | noNotice | takenByDesk
  deriving DecidableEq, Repr

/-- R109: a hold end taken by a chain in HOLDING. -/
def endHolding (e : Env) (c : Fin 4) (p : Fin 8) (k : HoldKind) (how : HoldEnd) (r : Run) : Run :=
  let r1 := clearHold e c r
  let r2 := derive e c r1
  match how with
  | .done | .suppressed | .noNotice | .takenByDesk => evaluateReturn e true c r2 r2
  | .late q => evaluateReturn e true c r2 (changeover e c p q .requireSet true r2)
  | .heldOut | .fault => holdExpiryRule e c p k r1

/-- R109: a hold end handed back by the Cue Scanner. A chain not HOLDING takes only the changeover
request of a LATE end. -/
def holdEnd (e : Env) (c : Fin 4) (p : Fin 8) (how : HoldEnd) (r : Run) : Run :=
  match chainState r c, (r.chains.get c).hold, how with
  | .holding, some (_, k), _ => endHolding e c p k how r
  | _, _, .late q => changeover e c p q .requireSet false r
  | _, _, _ => r

/-- R107: whether the chain takes the start of a hold of p. -/
def takesHold (e : Env) (c : Fin 4) (p : Fin 8) (r : Run) : Bool :=
  (chainState r c).onFilm && onAirPosition e.setup r c == some p

/-- R107: the start of a hold, with the URGENT strike request for the partner. -/
def holdStart (e : Env) (c : Fin 4) (p q : Fin 8) (k : HoldKind) (r : Run) : Run :=
  strikeRequest e q .urgent
    (r.modChain c (fun x => { x with hold := some (p, k), holdTimer := .running 0, state := .holding }))

/-- R107: a hold begun and ended FAULT at once: the hold-expiry rule alone, with no strike request (log 40). -/
def holdFault (e : Env) (c : Fin 4) (p : Fin 8) (k : HoldKind) (r : Run) : Run :=
  if (chainState r c).onFilm then
    holdExpiryRule e c p k (r.modChain c (fun x => { x with holdSweeps := 0 }))
  else r

end Sys2Proof.Machine
end

