-- ==== Sys2Proof/Machine/Cue.lean ====
section
/-! DEFINITION. The Cue Scanner: the mark detector, the walk, the actions and the holds of cue records
(05, R79 to R99). -/

namespace Sys2Proof.Machine

/-! ### The record at the cursor -/

/-- R79: what the scanner restarts. -/
def restartScan (p : Fin 8) (r : Run) : Run := r.modScan p (fun _ => ScanRec.restarted)

/-- The record at the cursor; none where the cursor stands at the list length. -/
def cursorRecord (su : Setup) (r : Run) (p : Fin 8) : Option (Option Cue) :=
  (cueList su p)[(r.scans.get p).cursor]?

/-- R83, R99: the cursor moves on, and the mark count, the hold and the met trigger are the new
record's. -/
def ScanRec.advanced (x : ScanRec) : ScanRec :=
  { x with cursor := x.cursor + 1, marks := 0, hold := .none, partnerRan := false, met := none }

/-- R72, R75, R77: the cursor placed at an index, nothing held or counted. -/
def ScanRec.placed (n : Nat) (x : ScanRec) : ScanRec :=
  { x with cursor := n, marks := 0, hold := .none, partnerRan := false, met := none }

/-- R96: a HOLD or WAIT ended without a notice; the record stays at the cursor unheld. -/
def ScanRec.released (x : ScanRec) : ScanRec :=
  { x with marks := 0, hold := .none, partnerRan := false, met := none }

/-- R96: change the scanning record so that any hold is gone, and tell the chain of the end of a HOLD. -/
def endScanHold (e : Env) (p : Fin 8) (f : ScanRec → ScanRec) (r : Run) : Run :=
  let was := (r.scans.get p).hold
  let r1 := r.modScan p f
  match was, chainOf e.setup p with
  | .hold, some (c, _) => holdEnd e c p .noNotice r1
  | _, _ => r1

/-! ### Completion (R97) -/

/-- R97: the CUE notice; then the cursor moves. -/
def complete (e : Env) (p : Fin 8) (b : Cue) (how : CueOutcome) (r : Run) : Run :=
  let byBackstop := (r.scans.get p).met == some true
  (queueNotice e (.cue p b.tag b.action how byBackstop (r.motions.get p).value) r).modScan p
    ScanRec.advanced

/-! ### Actions (R85 to R89) -/

/-- R90: hold the record at the cursor. -/
def putHold (p q : Fin 8) (r : Run) : Run :=
  r.modScan p (fun x => { x with hold := .hold, partnerRan := (motionOf r q).running })

/-- R89: put the record under WAIT. -/
def putWait (p : Fin 8) (r : Run) : Run := r.modScan p (fun x => { x with hold := .wait })

/-- R86: DOWSER OPEN and then START for the partner. -/
def prerollOrders (e : Env) (q : Fin 8) (r : Run) : Run :=
  queueFor e q .start (queueFor e q .dowserOpen r)

/-- R90, R107: begin a hold; where the chain does not take it the record is HELD OUT at once. -/
def beginHold (e : Env) (c : Fin 4) (p q : Fin 8) (k : HoldKind) (r : Run) :
    Run × Option CueOutcome :=
  if takesHold e c p r then (holdStart e c p q k (putHold p q r), none)
  else (r, some .heldOut)

/-- R86. -/
def takePreroll (e : Env) (c : Fin 4) (p q : Fin 8) (require : Bool) (r : Run) :
    Run × Option CueOutcome :=
  if !require then (prerollOrders e q r, some .done)
  else if failed r q then (holdFault e c p .preroll r, some .fault)
  else if primed r q then (prerollOrders e q r, some .done)
  else beginHold e c p q .preroll r

/-- R87. The Chain Unit takes the changeover request at once, within the walk (log 50). -/
def takeChange (e : Env) (c : Fin 4) (p q : Fin 8) (require : Bool) (r : Run) :
    Run × Option CueOutcome :=
  if !require then (changeover e c p q .requireClear false r, some .done)
  else if failed r q then (holdFault e c p .change r, some .fault)
  else if ready r q then (changeover e c p q .requireSet false r, some .done)
  else beginHold e c p q .change r

/-- R85: whether an action needs a partner. -/
def Action.needsPartner : Action → Bool
  | .preroll _ | .change _ | .lampPartner => true
  | .caption | .lampDown | .tailStop | .announce => false

/-- R85: whether an action is deferred while the chain is SWITCHING. -/
def Action.deferrable : Action → Bool
  | .preroll _ | .change _ | .caption => true
  | .lampPartner | .lampDown | .tailStop | .announce => false

/-- R86 to R88: a partner or caption action whose tests are passed. What it asks of the Chain Unit is taken at once,
within the walk (log 50). -/
def takeChainAction (e : Env) (c : Fin 4) (p : Fin 8) (q : Option (Fin 8)) (a : Action) (r : Run) :
    Run × Option CueOutcome :=
  match a, q with
  | .caption, _ => (plannedCaption e c r, some .done)
  | .preroll require, some q => takePreroll e c p q require r
  | .change require, some q => takeChange e c p q require r
  | .lampPartner, some q => (strikeRequest e q .urgent r, some .done)
  | _, _ => (r, some .void)

/-- R85: the tests of a partner or caption action, in order. `none` leaves the record at the cursor. -/
def takePartnerAction (e : Env) (p : Fin 8) (a : Action) (r : Run) : Run × Option CueOutcome :=
  match chainOf e.setup p with
  | none => (r, some .void)
  | some (c, _) =>
    if a.needsPartner && !pairValid e.setup c then (r, some .void)
    else if !isOnAir e.setup r p then (r, some .suppressed)
    else if !(e.setup.modes.get c).armed then (r, some .suppressed)
    else if a.deferrable && chainState r c == .switching then (r, none)
    else takeChainAction e c p (partnerOf e.setup p) a r

/-- R89: LAMP DOWN and TAIL STOP act on the reel's own projector. -/
def ownAction (e : Env) (p : Fin 8) (a : Action) (r : Run) : Run :=
  match a with
  | .lampDown => lampDownRequest e p r
  | _ => queueFor e p .dowserClose (queueFor e p .stop r)

/-- R89: whether p's chain, if it has one, is disarmed. -/
def disarmed (su : Setup) (p : Fin 8) : Bool :=
  match chainOf su p with
  | some (c, _) => !(su.modes.get c).armed
  | none => false

/-- R89: the tests of a LAMP DOWN or TAIL STOP, in order. -/
def takeOwnAction (e : Env) (p : Fin 8) (a : Action) (r : Run) : Run × Option CueOutcome :=
  if disarmed e.setup p then (r, some .suppressed)
  else if isOnAir e.setup r p then (putWait p r, none)
  else (ownAction e p a r, some .done)

/-- R85 to R89: take the action of a record whose trigger is met. -/
def takeAction (e : Env) (p : Fin 8) (a : Action) (r : Run) : Run × Option CueOutcome :=
  match a with
  | .announce => (r, some .done)
  | .lampDown | .tailStop => takeOwnAction e p a r
  | .preroll _ | .change _ | .lampPartner | .caption => takePartnerAction e p a r

/-! ### Triggers (R84) -/

/-- R84: whether a trigger is met, and if so whether BY BACKSTOP. -/
def triggerMet (b : Cue) (value : Int) (marks : Nat) : Option Bool :=
  match b.trigger with
  | .position => if b.point ≤ value then some false else none
  | .mark ordinal backstop =>
    if ordinal ≤ marks then some false
    else if backstop.any (fun x => decide (x ≤ value)) then some true
    else none

/-- R84: a trigger met BY BACKSTOP raises MARK MISSING for the chain of p. -/
def raiseMarkMissing (e : Env) (p : Fin 8) (r : Run) : Run :=
  match chainOf e.setup p with
  | some (c, _) => raiseChain e (slotMarkMissing c) r
  | none => r

/-- R84: keep that the trigger is met, and how. -/
def noteMet (e : Env) (p : Fin 8) (byBackstop : Bool) (r : Run) : Run :=
  let r1 := r.modScan p (fun x => { x with met := some byBackstop })
  if byBackstop then raiseMarkMissing e p r1 else r1

/-! ### Held records (R91) -/

/-- R91: the partner ran flag is set at an event that finds q in RUNUP or LOCKED. -/
def notePartnerRan (p q : Fin 8) (r : Run) : Run :=
  r.modScan p (fun x => { x with partnerRan := x.partnerRan || (motionOf r q).running })

/-- Whether the action is a CHANGE. -/
def Action.isChange : Action → Bool
  | .change _ => true
  | .preroll _ | .lampPartner | .lampDown | .tailStop | .caption | .announce => false

/-- R91: a CHANGE whose partner has run and runs no longer. -/
def partnerStopped (a : Action) (p q : Fin 8) (r : Run) : Bool :=
  a.isChange && (r.scans.get p).partnerRan && !(motionOf r q).running

/-- R86, R87: what a held record does when its condition has come. -/
def conditionCame (e : Env) (c : Fin 4) (p q : Fin 8) (a : Action) (r : Run) :
    Run × Option CueOutcome :=
  if a.isChange then (holdEnd e c p (.late q) r, some .late)
  else (holdEnd e c p .done (prerollOrders e q r), some .done)

/-- R91: whether a held record's condition holds. -/
def conditionHolds (a : Action) (q : Fin 8) (r : Run) : Bool :=
  if a.isChange then ready r q else primed r q

/-- R91: the tests of a held record, in order. `none` leaves the HOLD standing. -/
def takeHeldIn (e : Env) (ev : CueEvent) (c : Fin 4) (p q : Fin 8) (a : Action) (r : Run) :
    Run × Option CueOutcome :=
  match ev with
  | .holdExpiry => (holdEnd e c p .heldOut r, some .heldOut)
  | .onAirLoss => (holdEnd e c p .fault r, some .fault)
  | .deskSelect => (holdEnd e c p .takenByDesk r, some .takenByDesk)
  | .change =>
    if !isOnAir e.setup r p || !(e.setup.modes.get c).armed then
      (holdEnd e c p .suppressed r, some .suppressed)
    else if failed r q || partnerStopped a p q r then (holdEnd e c p .fault r, some .fault)
    else if conditionHolds a q r then conditionCame e c p q a r
    else (r, none)

/-- R91: a record under HOLD is taken again. The pair cannot become invalid during a hold; were it
so, the HOLD would stand. -/
def takeHeld (e : Env) (ev : CueEvent) (p : Fin 8) (a : Action) (r : Run) :
    Run × Option CueOutcome :=
  match chainOf e.setup p, partnerOf e.setup p with
  | some (c, _), some q => takeHeldIn e ev c p q a (notePartnerRan p q r)
  | _, _ => (r, none)

/-! ### The walk (R83) -/

/-- R83: a LOADED record at the cursor: its trigger tested where it is not yet met, then its action;
or the record under HOLD or WAIT taken again. -/
def takeCue (e : Env) (ev : CueEvent) (p : Fin 8) (b : Cue) (r : Run) : Run × Option CueOutcome :=
  let x := r.scans.get p
  match x.hold, x.met with
  | .hold, _ => takeHeld e ev p b.action r
  | .wait, _ => takeOwnAction e p b.action r
  | .none, some _ => takeAction e p b.action r
  | .none, none =>
    match triggerMet b (r.motions.get p).value x.marks with
    | some byBackstop => takeAction e p b.action (noteMet e p byBackstop r)
    | none => (r, none)

/-- R83: one record of a walk; true while the walk goes on. -/
def takeRecord (e : Env) (ev : CueEvent) (p : Fin 8) (r : Run) : Run × Bool :=
  match cursorRecord e.setup r p with
  | none => (r, false)
  | some none => (r.modScan p ScanRec.advanced, true)
  | some (some b) =>
    match takeCue e ev p b r with
    | (r1, some how) => (complete e p b how r1, true)
    | (r1, none) => (r1, false)

/-- R83: the walk; a cue list holds at most 32 records, so 33 records end it. -/
def walk (e : Env) (ev : CueEvent) (p : Fin 8) : Nat → Run → Run
  | 0, r => r
  | n + 1, r =>
    match takeRecord e ev p r with
    | (r1, true) => walk e ev p n r1
    | (r1, false) => r1

/-- R92: an expiry that finds no record under HOLD, or one under a later hold whose timer has not
expired, does nothing to the reel (log 24). -/
def reachesReel (e : Env) (ev : CueEvent) (p : Fin 8) (r : Run) : Bool :=
  match ev with
  | .holdExpiry =>
    (r.scans.get p).hold == .hold &&
      match chainOf e.setup p with
      | some (c, _) => (r.chains.get c).holdTimer == .expired
      | none => false
  | .change | .onAirLoss | .deskSelect => true

/-- R80, R81: an evaluation event of p's reel. -/
def evaluate (e : Env) (ev : CueEvent) (p : Fin 8) (r : Run) : Run :=
  if scanned e.setup r p && reachesReel e ev p r then walk e ev p 33 r else r

/-- An evaluation event for the reels of both ports of a chain; port 0's reel takes it first (log 38). -/
def evaluateBoth (e : Env) (ev : CueEvent) (c : Fin 4) (r : Run) : Run :=
  (portPositions e.setup c).foldl (fun r p => evaluate e ev p r) r

/-! ### Marks (R98, R99) -/

/-- R98: the detector takes a report's DOT signal. -/
def ScanRec.takeDot (dot : Bool) (x : ScanRec) : ScanRec :=
  if dot then
    let y := if x.dotRun = 0 then { x with precedingClear := x.clearRun, clearRun := 0 } else x
    { y with dotRun := min 7 (y.dotRun + 1) }
  else { x with dotRun := 0, clearRun := min 15 (x.clearRun + 1) }

/-- R98: whether the report just taken with DOT recognised a mark: it brought the run to exactly K
after a clear run of at least Q (log 33). -/
def ScanRec.recognises (k q : Nat) (x y : ScanRec) : Bool :=
  decide (x.dotRun < k) && decide (y.dotRun = k) && decide (q ≤ y.precedingClear)

/-- R99: whether a recognised mark counts toward the record at the cursor. -/
def markCounts (e : Env) (r : Run) (p : Fin 8) : Bool :=
  scanned e.setup r p &&
    match cursorRecord e.setup r p with
    | some (some b) =>
      match b.trigger with
      | .mark _ _ => decide (b.point ≤ (r.motions.get p).value)
      | .position => false
    | _ => false

/-- R99: the mark count goes up by one, stopping at 4. -/
def countMark (e : Env) (p : Fin 8) (r : Run) : Run :=
  if markCounts e r p then r.modScan p (fun x => { x with marks := min 4 (x.marks + 1) }) else r

/-- R82: the report event: detector, mark, walk. -/
def takeCueReport (e : Env) (p : Fin 8) (dot advance : Bool) (r : Run) : Run :=
  if definedPos e.setup p then
    let before := r.scans.get p
    let r1 := r.modScan p (ScanRec.takeDot dot)
    let mark := dot &&
      before.recognises e.setup.params.markLength e.setup.params.markGap (r1.scans.get p)
    let r2 := if mark then countMark e p r1 else r1
    if advance || mark then evaluate e .change p r2 else r2
  else r

/-- R29, R96: the position has become unreferenced: a HOLD or WAIT ends without a notice. Where neither stands,
nothing of the reel's record changes, its mark count and a deferred record's met trigger included (log 49). -/
def takeUnreferenced (e : Env) (p : Fin 8) (r : Run) : Run :=
  if (r.scans.get p).hold = .none then r else endScanHold e p ScanRec.released r

end Sys2Proof.Machine
end

