-- ==== Sys2Proof/Machine/ChainEvents.lean ====
section
/-! DEFINITION. What the Chain Unit does at an event from another block: roles worked afresh, MUX
reports, faults and on-air losses, desk SELECTs, sweep ends (06, R102 to R118). -/

namespace Sys2Proof.Machine

/-! ### Roles worked afresh (R103) -/

/-- R116: a switch of kind CHANGE whose target position has become FAULTED, its SELECT still QUEUED, turns
to the fallback input; the timer runs on. -/
def overtakeSwitch (e : Env) (c : Fin 4) (x : Port) (r : Run) : Run :=
  if isChangeTarget r c x && (r.chains.get c).select == .queued then
    let i := fallbackInput e.setup c
    let r1 :=
      match e.setup.chains.get c with
      | some d => replaceSelect d.station i r
      | none => r
    r1.modChain c (fun y => { y with target := some (i, .fallback) })
  else r

/-- R103: what one position's change brings: R116 where its role has passed to FAULTED (`was` holds the roles
before this working), the evaluation event of its reel, and the evaluation of its runout (log 23). -/
def roleChanged (e : Env) (was : Vector Role 8) (r : Run) (p : Fin 8) : Run :=
  let r1 :=
    match chainOf e.setup p with
    | some (c, x) =>
      if roleOf e.setup r p == .faulted && was.get p != .faulted then overtakeSwitch e c x r else r
    | none => r
  evaluateRunout e false p (evaluate e .change p r1)

/-- Whether p's role or whether it is on air differs from what was last worked. -/
def roleDiffers (e : Env) (r : Run) (p : Fin 8) : Bool :=
  roleOf e.setup r p != r.roles.get p || isOnAir e.setup r p != r.onAir.get p

/-- Record a position's role as worked. -/
def recordRole (e : Env) (r : Run) (p : Fin 8) : Run :=
  { r with
    roles := r.roles.set p (roleOf e.setup r p)
    onAir := r.onAir.set p (isOnAir e.setup r p) }

/-- Whether p carried the picture when the roles were last worked and does so no longer. -/
def leavesAir (e : Env) (r : Run) (p : Fin 8) : Bool := r.onAir.get p && !isOnAir e.setup r p

/-- R90, R103: the positions whose change a working hands on. One that leaves the air goes first, so that a HOLD of
its reel has ended before the reel of the position that comes on air is evaluated; else number order (log 23). -/
def changedRoles (e : Env) (r : Run) : List (Fin 8) :=
  let changed := allPositions.filter (roleDiffers e r)
  changed.filter (leavesAir e r) ++ changed.filter (fun p => !leavesAir e r p)

/-- R103: work the roles afresh and hand on each change. -/
def workRoles (e : Env) (r : Run) : Run :=
  let changed := changedRoles e r
  changed.foldl (roleChanged e r.roles) (changed.foldl (recordRole e) r)

/-! ### On-air loss (R117, R118) -/

/-- R117: the reaction of a chain in SINGLE or DOUBLE. -/
def reactToLoss (e : Env) (c : Fin 4) (p : Fin 8) (keep : Bool) (r : Run) : Run :=
  if (chainState r c).onFilm && (e.setup.modes.get c).fallback then
    match nextOf e.setup r c with
    | some q =>
      if ready r q then changeover e c p q .emergency keep r
      else strikeRequest e q .urgent (switchToFallback e c keep r)
    | none => switchToFallback e c keep r
  else r

/-- R93: the record a reel has under HOLD completes FAULT at an on-air loss; the end finds its chain not
HOLDING and changes nothing there (R109). -/
def completeHeld (e : Env) (r : Run) (p : Fin 8) : Run :=
  if scanned e.setup r p && (r.scans.get p).hold == .hold then (takeRecord e .onAirLoss p r).1 else r

/-- R93, R117: an on-air loss of chain c, whose picture p carries: the hold ended, the record under HOLD
completed FAULT, the reaction by the state at the loss, and then the rest of both ports' walks (log 15). A chain
that has so returned from HOLDING has its runout evaluated after the reaction (R119). -/
def onAirLoss (e : Env) (c : Fin 4) (p : Fin 8) (r : Run) : Run :=
  let held := chainState r c == .holding
  let r1 := if held then derive e c (clearHold e c r) else r
  let r2 := reactToLoss e c p held ((portPositions e.setup c).foldl (completeHeld e) r1)
  let r3 := if held then evaluateReturn e true c r1 r2 else r2
  evaluateBoth e .onAirLoss c r3

/-- R117: a fault handed on is a loss where the position is its chain's on-air position. -/
def takeFault (e : Env) (p : Fin 8) (r : Run) : Run :=
  match chainOf e.setup p with
  | some (c, _) => if isOnAir e.setup r p then onAirLoss e c p r else r
  | none => r

/-- R118: a loss that stands is reacted to, in SINGLE or DOUBLE. -/
def reapplyLoss (e : Env) (c : Fin 4) (r : Run) : Run :=
  match onAirPosition e.setup r c with
  | some p => if lossStands e.setup r c then reactToLoss e c p false r else r
  | none => r

/-- R114, R115: a switch that has ended without confirmation: its end is handed to the reels, then R118 is applied and
the runout evaluated (R119). `back` is the run at the return, `r` what has followed of it. -/
def endUnconfirmed (e : Env) (c : Fin 4) (back r : Run) : Run :=
  evaluateReturn e false c back (reapplyLoss e c (evaluateBoth e .change c r))

/-! ### Motion, lamp faults and advances of a port position (R106, R119) -/

/-- R106: in SINGLE and DOUBLE the state is derived afresh. -/
def rederive (e : Env) (c : Fin 4) (r : Run) : Run :=
  if (chainState r c).onFilm then derive e c r else r

/-- A change of motion state or of SILENT handed on: the roles are worked (R103); where the motion state
changed, the state is derived first (R106) and p's runout is evaluated last (R119). -/
def takeMotionChange (e : Env) (p : Fin 8) (moved : Bool) (r : Run) : Run :=
  match moved, chainOf e.setup p with
  | true, some (c, _) => evaluateRunout e false p (workRoles e (rederive e c r))
  | true, none | false, _ => workRoles e r

/-! ### MUX reports (R105, R113, R115) -/

def setObserved (c : Fin 4) (i : Input) (r : Run) : Run :=
  r.modChain c (fun x => { x with observed := some i })

/-- The switch is over: timer idle, SELECT none, target and from input absent, hold sweeps 0 (R113,
R114). -/
def clearSwitch (c : Fin 4) (r : Run) : Run :=
  r.modChain c (fun x =>
    { x with
      target := none
      fromInput := none
      select := .none
      switchTimer := none
      holdSweeps := 0 })

/-- R114, R115: a SELECT still QUEUED is withdrawn. -/
def withdrawSelect (e : Env) (c : Fin 4) (r : Run) : Run :=
  if (r.chains.get c).select = .queued then
    match e.setup.chains.get c with
    | some d => withdrawOrder d.station (Order.select .port0).code r
    | none => r
  else r

def setChainState (c : Fin 4) (s : ChainState) (r : Run) : Run :=
  r.modChain c (fun x => { x with state := s })

/-- R113: whether the new on-air position of a CHANGE cannot carry the picture. -/
def unfitOnAir (e : Env) (c : Fin 4) (r : Run) : Bool :=
  match onAirPosition e.setup r c with
  | some q => roleOf e.setup r q == .faulted || !(motionOf r q).running
  | none => false

/-- R113: the switch is confirmed. The fallback switch of a CHANGE whose new on-air position is unfit is made
at once, before the reels take the change of roles and the end of SWITCHING, so that no HOLD begins in a
chain that SWITCHING then takes (R90; log 39). -/
def confirmSwitch (e : Env) (c : Fin 4) (i : Input) (k : SwitchKind) (r : Run) : Run :=
  let x := r.chains.get c
  let r1 := queueNotice e (.change c x.fromInput i k x.holdSweeps) (setObserved c i r)
  let r2 := clearSwitch c r1
  let r3 := if k = .fallback then setChainState c .fallback r2 else derive e c r2
  let r4 := if k == .change && unfitOnAir e c r3 then switchToFallback e c false r3 else r3
  evaluateReturn e false c r3 (evaluateBoth e .change c (workRoles e r4))

/-- R115: a selection that is neither target nor from input ends the switch. -/
def abandonSwitch (e : Env) (c : Fin 4) (i : Input) (r : Run) : Run :=
  let x := r.chains.get c
  let r1 :=
    queueNotice e (.adopt c i (x.target.map Prod.fst) x.fromInput) (setObserved c i r)
  let r2 := derive e c (clearSwitch c (withdrawSelect e c r1))
  endUnconfirmed e c r2 (workRoles e r2)

/-- R105: DARK, SINGLE, DOUBLE and FALLBACK, in which an unexpected selection has the state derived. -/
def ChainState.settled : ChainState → Bool
  | .dark | .single | .double | .fallback => true
  | .unknown | .holding | .switching => false

/-- R105: an unexpected selection in a state other than SWITCHING: the roles are worked afresh, and the state
is then derived. In HOLDING the state stays; a state that the working of the roles has made HOLDING or
SWITCHING stays too (log 13). -/
def adoptSelection (e : Env) (c : Fin 4) (i : Input) (r : Run) : Run :=
  let was := (r.chains.get c).observed
  let r1 := workRoles e (queueNotice e (.adopt c i was none) (setObserved c i r))
  if (chainState r1 c).settled then derive e c r1 else r1

/-- R105, R113, R115: a MUX report delivered. At the first report the state is derived before the roles are worked
(log 45). -/
def takeMux (e : Env) (c : Fin 4) (i : Input) (r : Run) : Run :=
  let x := r.chains.get c
  match x.state with
  | .unknown => workRoles e (derive e c (setObserved c i r))
  | .switching =>
    match x.target with
    | some (t, k) =>
      if i = t then confirmSwitch e c i k r
      else if some i = x.fromInput then r
      else abandonSwitch e c i r
    | none => abandonSwitch e c i r
  | .dark | .single | .double | .holding | .fallback =>
    if some i = x.observed then r else adoptSelection e c i r

/-! ### SELECTs (R112) -/

/-- R112: the part's SELECT has been inserted. -/
def selectInserted (c : Fin 4) (r : Run) : Run :=
  let x := r.chains.get c
  if x.state = .switching ∧ x.select = .queued then
    r.modChain c (fun x => { x with select := .sent })
  else r

/-- R112: a desk SELECT that passed the screen. In HOLDING the scanner is handed it and the hold is
over; the scanner takes it with the chain SWITCHING (R109, log 14). -/
def deskSelect (e : Env) (c : Fin 4) (i : Input) (r : Run) : Run :=
  let held := chainState r c = .holding
  let r1 :=
    if held then
      clearHold e c (r.handAll ((portPositions e.setup c).map (fun p => .cueEvent p .deskSelect)))
    else r
  r1.modChain c (fun x =>
    { x with
      target := some (i, .desk)
      fromInput := x.observed
      select := .sent
      switchTimer := some 0
      holdSweeps := if held then x.holdSweeps else 0
      state := .switching })

/-! ### Sweep ends (R108, R114) -/

/-- R108: the hold timer's count at a sweep end: at the limit it stands expired. -/
def HoldTimer.count (limit : Nat) : HoldTimer → HoldTimer
  | .idle => .idle
  | .running n => if limit ≤ n + 1 then .expired else .running (n + 1)
  | .expired => .expired

def countHold (e : Env) (c : Fin 4) (r : Run) : Run :=
  r.modChain c (fun x =>
    if x.state = .holding then
      { x with holdTimer := x.holdTimer.count (e.setup.modes.get c).holdLimit }
    else x)

def countSwitch (c : Fin 4) (r : Run) : Run :=
  r.modChain c (fun x =>
    if x.state = .switching then { x with switchTimer := x.switchTimer.map (· + 1) } else x)

/-- R108: the hold timer stands expired. -/
def holdIsDue (c : Fin 4) (r : Run) : Bool :=
  chainState r c == .holding && (r.chains.get c).holdTimer == .expired

/-- R114: the switch timer stands at or above the switch limit. -/
def switchIsDue (e : Env) (c : Fin 4) (r : Run) : Bool :=
  chainState r c == .switching && reached (r.chains.get c).switchTimer (e.setup.modes.get c).switchLimit

/-- R108: the expiry is handed to the Cue Scanner as an evaluation event of the held reel. -/
def expireHold (c : Fin 4) (r : Run) : Run :=
  match (r.chains.get c).hold with
  | some (p, _) => if holdIsDue c r then r.hand (.cueEvent p .holdExpiry) else r
  | none => r

/-- R114: the switch has failed. -/
def expireSwitch (e : Env) (c : Fin 4) (r : Run) : Run :=
  if switchIsDue e c r then
    let r1 := withdrawSelect e c (raiseChain e (slotSwitchFailed c) r)
    let r2 := derive e c (clearSwitch c r1)
    endUnconfirmed e c r2 r2
  else r

end Sys2Proof.Machine
end

