-- ==== Sys2Proof/Machine/Rules.lean ====
section
/-! DEFINITION. The Rule Unit: matching, counting, firing and the protective actions (08, R140 to
R146). -/

namespace Sys2Proof.Machine

/-- R140: the motion states a qualifier fits. -/
def Qualifier.fits : Qualifier → Motion → Bool
  | .any, _ => true
  | .moving, m => m.running
  | .stopped, m => m == .stopped

/-- R140: an active rule whose Positions set has the position. -/
def Rule.covers (x : Rule) (p : Fin 8) : Bool := x.active && x.positions.getLsbD p.val

/-- R140: every signal in the mask shows the value the rule gives for it. -/
def Rule.matchesSignals (x : Rule) (now : Byte) : Bool :=
  (now &&& x.mask) == (x.values &&& x.mask)

/-- R141: what a report makes of a rule's counter for a covered position. -/
def Rule.nextCount (x : Rule) (now : Byte) (judged : Motion) (n : Nat) : Nat :=
  if x.qualifier.fits judged && x.matchesSignals now then min x.persistence (n + 1) else 0

def counterOf (r : Run) (i : Fin 16) (p : Fin 8) : Nat := (r.counters.get i).get p

def setCounter (i : Fin 16) (p : Fin 8) (n : Nat) (r : Run) : Run :=
  { r with counters := r.counters.set i ((r.counters.get i).set p n) }

/-- R143: a rule fires when the report brings its counter to its persistence. -/
def ruleFires (e : Env) (r : Run) (p : Fin 8) (now : Byte) (judged : Motion) (i : Fin 16) : Bool :=
  let x := e.setup.rules.get i
  let n := counterOf r i p
  x.covers p && decide (n < x.persistence) && x.nextCount now judged n == x.persistence

/-- R141: the report moves one rule's counter. -/
def countRule (e : Env) (p : Fin 8) (now : Byte) (judged : Motion) (r : Run) (i : Fin 16) : Run :=
  let x := e.setup.rules.get i
  if x.covers p then setCounter i p (x.nextCount now judged (counterOf r i p)) r else r

/-- R144: STOP and then DOWSER CLOSE. -/
def stopAction (e : Env) (p : Fin 8) (r : Run) : Run :=
  queueFor e p .dowserClose (queueFor e p .stop r)

/-- R145: a LOSS is an on-air loss where p is on air, and the STOP action where it is not. The Chain Unit takes
the loss within the rule's action, before the actions of later rules (log 41). -/
def lossAction (e : Env) (p : Fin 8) (r : Run) : Run :=
  if isOnAir e.setup r p then takeFault e p r else stopAction e p r

/-- R144, R145: a fired rule's action. -/
def ruleAct (e : Env) (p : Fin 8) (r : Run) (i : Fin 16) : Run :=
  match (e.setup.rules.get i).action with
  | .none => r
  | .dowser => queueFor e p .dowserClose r
  | .stop => stopAction e p r
  | .loss => lossAction e p r

/-- R143: the one raise of a report's fired rules, with the lowest-numbered one's index and severity. -/
def raiseRule (e : Env) (p : Fin 8) (i : Fin 16) (r : Run) : Run :=
  raise e (slotRule p) (some (r.motions.get p).value) (some (i, (e.setup.rules.get i).severity)) r

/-- R141, R143, R144: a report taken: the counters, then the raise, then the actions in rule order. -/
def takeRuleReport (e : Env) (p : Fin 8) (now : Byte) (judged : Motion) (r : Run) : Run :=
  let fired := allRules.filter (ruleFires e r p now judged)
  let r1 := allRules.foldl (countRule e p now judged) r
  match fired with
  | [] => r1
  | i :: _ => fired.foldl (ruleAct e p) (raiseRule e p i r1)

/-- Whether a report with these signals would fire a rule (R143). -/
def anyRuleFires (e : Env) (r : Run) (p : Fin 8) (now : Byte) (judged : Motion) : Bool :=
  allRules.any (ruleFires e r p now judged)

end Sys2Proof.Machine
end

