-- ==== Sys2Proof/Machine/Agenda.lean ====
section
/-! DEFINITION. The hand-offs between the blocks: who takes each, in what order, until none is left.
Hand-offs to one block are taken in the order they were handed; which block takes its own next is open
(R44: "taken by each in its own course") and decided by `schedule`, then by the free value
`Config.arbiter` (log 1). -/

namespace Sys2Proof.Machine

/-- The block that takes a hand-off. -/
def Handoff.block : Handoff → Block
  | .lampReport .. | .lampConditions _ | .strikeDue _ | .settleDue _ | .gapDue | .dwellDue _ => .lamp
  | .chainMotion .. | .chainLampFault _ | .chainFault _ | .chainAdvance _ | .holdDue _
  | .switchDue _ => .chain
  | .cueUnreferenced _ | .cueReport .. | .cueEvent .. => .cue
  | .ruleReport .. => .rule
  | .silentDue _ | .runupDue _ | .stopDue _ => .motion

/-- A hand-off taken by its block. -/
def takeHandoff (e : Env) : Handoff → Run → Run
  | .lampReport p lamp dowser, r => takeLampReport e p lamp dowser r
  | .lampConditions p, r => workConditions e p r
  | .chainMotion p moved, r => takeMotionChange e p moved r
  | .chainLampFault _, r => workRoles e r
  | .chainFault p, r => takeFault e p r
  | .chainAdvance p, r => evaluateRunout e false p r
  | .cueUnreferenced p, r => takeUnreferenced e p r
  | .cueReport p dot advance, r => takeCueReport e p dot advance r
  | .cueEvent p ev, r => evaluate e ev p r
  | .ruleReport p now judged, r => takeRuleReport e p now judged r
  | .silentDue p, r => becomeSilent e p r
  | .runupDue p, r => expireRunup e p r
  | .stopDue p, r => expireStop e p r
  | .strikeDue p, r => expireStrike e p r
  | .settleDue p, r => expireSettle e p r
  | .gapDue, r => expireGap e r
  | .dwellDue p, r => expireDwell e p r
  | .holdDue c, r => expireHold c r
  | .switchDue c, r => expireSwitch e c r

/-- The blocks with something to take, the one handed to first at the front. -/
def waitingBlocks (hs : List Handoff) : List Block :=
  hs.foldl (fun bs h => if bs.contains h.block then bs else bs ++ [h.block]) []

/-- The oldest hand-off to a block, and the rest without it. -/
def takeOldest (b : Block) : List Handoff → Option (Handoff × List Handoff)
  | [] => none
  | h :: hs =>
    if h.block = b then some (h, hs)
    else
      match takeOldest b hs with
      | some (x, rest) => some (x, h :: rest)
      | none => none

/-- The number that decides an open order: the schedule's next, else the free value's. -/
def openChoice (r : Run) : Nat :=
  match r.schedule with
  | n :: _ => n
  | [] => Config.arbiter r.choices

/-- An open order has been decided. -/
def Run.choiceUsed (r : Run) : Run :=
  match r.schedule with
  | _ :: ns => { r with schedule := ns }
  | [] => { r with choices := r.choices + 1 }

/-- The next hand-off, out of the list. With one block waiting nothing is open. -/
def pickHandoff (r : Run) : Option (Handoff × Run) :=
  match waitingBlocks r.handoffs with
  | [] => none
  | [b] => (takeOldest b r.handoffs).map (fun x => (x.1, { r with handoffs := x.2 }))
  | b :: bs =>
    let all := b :: bs
    let chosen := all.getD (openChoice r % all.length) b
    (takeOldest chosen r.handoffs).map (fun x => (x.1, { r.choiceUsed with handoffs := x.2 }))

/-- Hand-offs taken until none is left, at the most so many (log 2). -/
def drainFor (e : Env) : Nat → Run → Run
  | 0, r => r
  | n + 1, r =>
    match pickHandoff r with
    | none => r
    | some (h, r1) => drainFor e n (takeHandoff e h r1)

/-- All that the hand-offs bring about. -/
def drain (e : Env) (r : Run) : Run := drainFor e Config.handoffFuel r

/-! ### The sweep end (R13) -/

/-- The counts of one position at a sweep end: miss, runup and stop (R35, R36, R41); strike, settle
and dwell (R52, R55, R59). -/
def countPosition (e : Env) (reported : Vector Bool 8) (r : Run) (p : Fin 8) : Run :=
  let missed := definedPos e.setup p && !(reported.get p)
  let r1 := countDwell e p r
  let r2 := r1.modLamp p (fun l => l.countStrike.countSettle)
  r2.modMotion p (fun m =>
    let m1 := m.countRunup.countStop
    if missed then m1.countMiss else m1)

/-- The counts of one chain at a sweep end (R108, R114). -/
def countChain (e : Env) (r : Run) (c : Fin 4) : Run := countSwitch c (countHold e c r)

/-- Every sweep-counted timer and counter, counted on the state as it stands at the sweep end. -/
def countSweep (e : Env) (reported : Vector Bool 8) (r : Run) : Run :=
  countGap (allChains.foldl (countChain e) (allPositions.foldl (countPosition e reported) r))

/-- What is due of one position after the counts: the Motion Tracker's share, SILENT, then the runup, then the
stop timer (log 35). -/
def dueMotion (e : Env) (r : Run) (p : Fin 8) : List Handoff :=
  (if silentIsDue e p r then [.silentDue p] else [])
    ++ (if runupIsDue e p r then [.runupDue p] else [])
    ++ (if stopIsDue e p r then [.stopDue p] else [])

/-- The Lamp Unit's share: strike, then settle, then dwell (log 35). -/
def dueLamp (e : Env) (r : Run) (p : Fin 8) : List Handoff :=
  (if strikeIsDue e p r then [.strikeDue p] else [])
    ++ (if settleIsDue e p r then [.settleDue p] else [])
    ++ (if dwellIsDue e p r then [.dwellDue p] else [])

/-- The Chain Unit's share: hold, then switch (log 35). -/
def dueChain (e : Env) (r : Run) (c : Fin 4) : List Handoff :=
  (if holdIsDue c r then [.holdDue c] else [])
    ++ (if switchIsDue e c r then [.switchDue c] else [])

/-- Everything due at a sweep end, each share handed to its block: positions and chains in number order, the
stagger gap after every position of the Lamp Unit's share (log 35). -/
def dueAll (e : Env) (r : Run) : List Handoff :=
  allPositions.flatMap (dueMotion e r)
    ++ (allPositions.flatMap (dueLamp e r) ++ (if gapIsDue e r then [.gapDue] else []))
    ++ allChains.flatMap (dueChain e r)

/-- R13: the sweep end: the counts, then what they have made due (log 3). -/
def sweepEnd (e : Env) (reported : Vector Bool 8) (r : Run) : Run :=
  let r1 := countSweep e reported r
  r1.handAll (dueAll e r1)

end Sys2Proof.Machine
end

