-- ==== Sys2Proof/Machine/Operands.lean ====
section
/-! DEFINITION. Octets and fields: what the part reads from the cells it takes and writes into the
cells it makes (11, R172 to R174). -/

namespace Sys2Proof.Machine

/-! ### Numbers -/

def byteOf (n : Nat) : Byte := BitVec.ofNat 8 n

/-- An octet as an index below n, where it is one. -/
def indexOf (n : Nat) (b : Byte) : Option (Fin n) :=
  if h : b.toNat < n then some ⟨b.toNat, h⟩ else none

def bitOf (b : Bool) (k : Nat) : Byte := if b then byteOf (2 ^ k) else 0

/-- The three octets of a position value, most significant first (11). -/
def hi24 (v : Int) : Byte := (BitVec.ofInt 24 v).extractLsb' 16 8
def mid24 (v : Int) : Byte := (BitVec.ofInt 24 v).extractLsb' 8 8
def lo24 (v : Int) : Byte := (BitVec.ofInt 24 v).extractLsb' 0 8

/-- Three octets read as a 24-bit two's complement number (R172). -/
def read24 (a b c : Byte) : Int := (a ++ b ++ c : BitVec 24).toInt

/-- Two octets read as an unsigned number, most significant first (11; log 29 for a bit set). -/
def read16 (a b : Byte) : BitVec 16 := a ++ b

def hi16 (w : BitVec 16) : Byte := w.extractLsb' 8 8
def lo16 (w : BitVec 16) : Byte := w.extractLsb' 0 8

/-- 00, Film position: −32,768 to +262,143. -/
def inRange (v : Int) : Bool := decide (Config.minPosition ≤ v) && decide (v ≤ Config.maxPosition)

/-! ### Code values (11, section 11.6) -/

def Motion.code : Motion → Nat
  | .unreported => 0 | .stopped => 1 | .runup => 2 | .locked => 3 | .stopping => 4 | .broken => 5

def LampState.code : LampState → Nat
  | .unreported => 0 | .dark => 1 | .queued => 2 | .striking => 3 | .settling => 4 | .lit => 5

def Dowser.code : Dowser → Nat
  | .unknown => 0 | .opened => 1 | .closed => 2

def Role.code : Role → Nat
  | .onAir => 0 | .next => 1 | .idle => 2 | .faulted => 3

def Input.code : Input → Nat
  | .port0 => 0 | .port1 => 1 | .caption => 2 | .black => 3

def ChainState.code : ChainState → Nat
  | .unknown => 0 | .dark => 1 | .single => 2 | .double => 3 | .holding => 4 | .switching => 5
  | .fallback => 6

def SwitchKind.code : SwitchKind → Nat
  | .change => 0 | .planned => 1 | .fallback => 2 | .desk => 3

def Verdict.code : Verdict → Nat
  | .pass => 0 | .block => 1 | .force => 2

def BlockReason.code : BlockReason → Nat
  | .table => 0 | .unforced => 1 | .switching => 2

def Qualifier.code : Qualifier → Nat
  | .any => 0 | .moving => 1 | .stopped => 2

def RuleAction.code : RuleAction → Nat
  | .none => 0 | .dowser => 1 | .stop => 2 | .loss => 3

def CueOutcome.code : CueOutcome → Nat
  | .done => 0 | .late => 1 | .void => 2 | .suppressed => 3 | .heldOut => 4 | .fault => 5
  | .takenByDesk => 6

def Action.code : Action → Nat
  | .preroll _ => 0 | .change _ => 1 | .lampPartner => 2 | .lampDown => 3 | .tailStop => 4
  | .caption => 5 | .announce => 6

def Result.code : Result → Nat
  | .done => 0 | .badreq => 1 | .range => 2 | .locked => 3 | .busy => 4 | .conflict => 5
  | .empty => 6

def Gauge.code : Gauge → Nat
  | .mm35 => 0 | .mm16 => 1

def Rate.code : Rate → Nat
  | .fps24 => 0 | .fps25 => 1 | .fps30 => 2

def ClearClass.code : ClearClass → Nat
  | .brk => 6 | .silent => 9

def UnrefReason.code : UnrefReason → Nat
  | .jump => 0 | .brk => 1

/-- MAJOR is 1. -/
def Severity.bit : Severity → Bool
  | .major => true
  | .minor => false

/-- The input an octet names. -/
def Input.ofCode (n : Nat) : Option Input :=
  match n with
  | 0 => some .port0 | 1 => some .port1 | 2 => some .caption | 3 => some .black
  | _ => none

/-- An input in a one-octet field, 255 where absent (R172). -/
def inputOctet : Option Input → Byte
  | some i => byteOf i.code
  | none => 255

/-- An input in a three-bit field, 4 where absent (R172). -/
def inputField : Option Input → Nat
  | some i => i.code
  | none => 4

/-! ### Orders (11, section 11.2; R126) -/

/-- The order an ORDER cell's kind and argument octets name: kinds 1 to 6, or SELECT with an argument
0 to 3 (R126). -/
def Order.ofOctets (kind arg : Byte) : Option Order :=
  match kind.toNat with
  | 1 => some .start | 2 => some .stop | 3 => some .lampUp | 4 => some .lampDown
  | 5 => some .dowserOpen | 6 => some .dowserClose
  | 7 => (Input.ofCode arg.toNat).map Order.select
  | _ => none

/-- The argument octet: the input of a SELECT, 0 otherwise (log 20). -/
def Order.argument : Order → Byte
  | .select i => byteOf i.code
  | .start | .stop | .lampUp | .lampDown | .dowserOpen | .dowserClose => 0

/-- R134: the ORDER cell of an inserted entry: origin part, force flag clear. -/
def orderCell (x : OrderEntry) : Cell :=
  Cell.make .order (x.station.setWidth 8)
    (payload13 (byteOf x.order.code) x.order.argument (bitOf true 0))

/-! ### Notices (11, section 11.3) -/

/-- The payload of a queued notice. -/
def noticePayload (n : Notice) : Payload :=
  match n.body with
  | .clear p cls => payload13 2 n.sweep (byteOf p.val) (byteOf cls.code)
  | .cue p tag a how byBackstop v =>
    payload13 3 n.sweep (byteOf p.val) tag (byteOf a.code) (byteOf how.code) (bitOf byBackstop 0)
      (hi24 v) (mid24 v) (lo24 v)
  | .blocked st o column why =>
    payload13 4 n.sweep (st.setWidth 8) (byteOf o.code) o.argument (byteOf column.code)
      (byteOf why.code)
  | .change c fromInput target k holdSweeps =>
    payload13 5 n.sweep (byteOf c.val) (inputOctet fromInput) (byteOf target.code) (byteOf k.code)
      (byteOf holdSweeps)
  | .adopt c reported first second =>
    payload13 6 n.sweep (byteOf c.val) (byteOf reported.code) (inputOctet first) (inputOctet second)
  | .unref p why v =>
    payload13 7 n.sweep (byteOf p.val) (byteOf why.code) (hi24 v) (mid24 v) (lo24 v)

/-- Octet 5 of an ALARM notice: severity, repeat, position value present, rule present. -/
def slotFlags (r : Run) (k : Fin 82) : Byte :=
  let x := r.slots.get k
  bitOf (severityOf r k).bit 0 ||| bitOf x.repeated 1 ||| bitOf x.value.isSome 2
    ||| bitOf x.rule.isSome 3

/-- The captured position value in three octets, 0 where absent (R172). -/
def valueOctets (v : Option Int) : Byte × Byte × Byte :=
  match v with
  | some v => (hi24 v, mid24 v, lo24 v)
  | none => (0, 0, 0)

/-- The captured rule index, 0 where no rule is present (log 42). -/
def ruleIndexOctet (x : Option (Fin 16 × Severity)) : Byte :=
  match x with
  | some (i, _) => byteOf i.val
  | none => 0

/-- R154: the payload of an ALARM notice, with the current sweep number. -/
def alarmPayload (sweep : Byte) (r : Run) (k : Fin 82) : Payload :=
  let x := r.slots.get k
  let v := valueOctets x.value
  payload13 1 sweep (byteOf k.val) (slotFlags r k) (x.sweep.getD 0) v.1 v.2.1 v.2.2
    (ruleIndexOctet x.rule)

/-! ### Request parameters and replies (11, sections 11.4 and 11.5) -/

/-- Ten reply data octets, those not given 0 (R164). -/
def data10 (d0 d1 d2 d3 d4 d5 d6 d7 d8 d9 : Byte := 0) : Vector Byte 10 :=
  #v[d0, d1, d2, d3, d4, d5, d6, d7, d8, d9]

/-- A request with its parameter octets read (11, section 11.4). -/
inductive Request
  | definePosition (position station gauge rate : Byte)
  | readPosition (position view : Byte)
  | defineChain (chain station port0 port1 caption : Byte)
  | setChainMode (chain mode holdLimit switchLimit runoutGuard : Byte)
  | readChain (chain : Byte)
  | loadCue (pageRecord : Byte) (record : Vector Byte 9)
  | readCue (page record : Byte)
  | clearPage (page : Byte)
  | mapPage (position slot page : Byte)
  | setReel (position flags : Byte) (lastPicture : Int)
  | readReel (position : Byte)
  | setPosition (position : Byte) (value : Int)
  | restartCues (position : Byte)
  | setScreen (kind onAir next idle faulted : Byte)
  | readScreen (kind : Byte)
  | setRule (rule : Byte) (record : Vector Byte 5)
  | readRule (rule : Byte)
  | takeAlarm
  | releaseAlarm
  | setAlarmEnables (mode : Byte) (mask : BitVec 16)
  | readAlarms (group position : Byte)
  | setParam (code : Byte) (value : Nat)
  | readParam (code : Byte)
  | resetPart
  deriving DecidableEq, Repr

/-- The request a payload carries; none for a code of 0 or 25 to 255 (R163, R174). Payload octet n of
the spec's "parameter octet n" is `m[n]`. -/
def Request.ofPayload (m : Payload) : Option Request :=
  match m[0].toNat with
  | 1 => some (.definePosition m[2] m[3] m[4] m[5])
  | 2 => some (.readPosition m[2] m[3])
  | 3 => some (.defineChain m[2] m[3] m[4] m[5] m[6])
  | 4 => some (.setChainMode m[2] m[3] m[4] m[5] m[6])
  | 5 => some (.readChain m[2])
  | 6 => some (.loadCue m[2] #v[m[3], m[4], m[5], m[6], m[7], m[8], m[9], m[10], m[11]])
  | 7 => some (.readCue m[2] m[3])
  | 8 => some (.clearPage m[2])
  | 9 => some (.mapPage m[2] m[3] m[4])
  | 10 => some (.setReel m[2] m[3] (read24 m[4] m[5] m[6]))
  | 11 => some (.readReel m[2])
  | 12 => some (.setPosition m[2] (read24 m[3] m[4] m[5]))
  | 13 => some (.restartCues m[2])
  | 14 => some (.setScreen m[2] m[3] m[4] m[5] m[6])
  | 15 => some (.readScreen m[2])
  | 16 => some (.setRule m[2] #v[m[3], m[4], m[5], m[6], m[7]])
  | 17 => some (.readRule m[2])
  | 18 => some .takeAlarm
  | 19 => some .releaseAlarm
  | 20 => some (.setAlarmEnables m[2] (read16 m[3] m[4]))
  | 21 => some (.readAlarms m[2] m[3])
  | 22 => some (.setParam m[2] (read16 m[3] m[4]).toNat)
  | 23 => some (.readParam m[2])
  | 24 => some .resetPart
  | _ => none

/-- R164: the echoed request code, 0 for a code outside 1 to 24. -/
def echoedCode (code : Byte) : Byte := if 1 ≤ code.toNat ∧ code.toNat ≤ 24 then code else 0

/-- R164: the payload of a REPLY. -/
def replyPayload (code tag sweep : Byte) (result : Result) (d : Vector Byte 10) : Payload :=
  #v[echoedCode code ||| byteOf (32 * result.code), tag, sweep, d[0], d[1], d[2], d[3], d[4], d[5],
     d[6], d[7], d[8], d[9]]

/-! ### Cue records (11, section 11.4) -/

/-- The action an octet 0 of a cue record names, with its Require bit; none for code 7. -/
def Action.ofOctet (b : Byte) : Option Action :=
  match (b &&& 7).toNat with
  | 0 => some (.preroll (b.getLsbD 5)) | 1 => some (.change (b.getLsbD 5))
  | 2 => some .lampPartner | 3 => some .lampDown | 4 => some .tailStop | 5 => some .caption
  | 6 => some .announce
  | _ => none

/-- What a LOAD CUE's record octets say, after R67's checks on them. -/
inductive CueRead
  | vacant | loaded (b : Cue) | refused (why : Result)
  deriving DecidableEq, Repr

/-- R67: the trigger of a record with the loaded flag set, none where R67 refuses it RANGE. -/
def readTrigger (x : Vector Byte 9) (point : Int) : Option Trigger :=
  let isMark := x[0].getLsbD 6
  let hasBackstop := x[0].getLsbD 4
  let backstop := read24 x[4] x[5] x[6]
  let ordinal := x[7].toNat
  if !inRange point then none
  else if isMark then
    if ordinal = 0 ∨ 4 < ordinal then none
    else if hasBackstop then
      if inRange backstop && decide (point ≤ backstop) then some (.mark ordinal (some backstop)) else none
    else some (.mark ordinal none)
  else if hasBackstop then none
  else some .position

/-- R67, R174: read a cue record. -/
def readCueRecord (x : Vector Byte 9) : CueRead :=
  if x[0].getLsbD 7 then
    match Action.ofOctet x[0] with
    | none => .refused .badreq
    | some a =>
      let point := read24 x[1] x[2] x[3]
      match readTrigger x point with
      | none => .refused .range
      | some t => .loaded { trigger := t, point := point, action := a, tag := x[8] }
  else .vacant

def Action.require : Action → Bool
  | .preroll x | .change x => x
  | .lampPartner | .lampDown | .tailStop | .caption | .announce => false

/-- Octet 0 of a LOADED record. -/
def cueOctet0 (b : Cue) : Byte :=
  let markBits :=
    match b.trigger with
    | .position => 0
    | .mark _ backstop => bitOf true 6 ||| bitOf backstop.isSome 4
  bitOf true 7 ||| markBits ||| bitOf b.action.require 5 ||| byteOf b.action.code

def cueBackstop (b : Cue) : Option Int :=
  match b.trigger with
  | .mark _ x => x
  | .position => none

def cueOrdinal (b : Cue) : Nat :=
  match b.trigger with
  | .mark n _ => n
  | .position => 0

/-! ### Rule records (11, section 11.4) -/

def Qualifier.ofCode (n : Nat) : Option Qualifier :=
  match n with
  | 0 => some .any | 1 => some .moving | 2 => some .stopped
  | _ => none

def RuleAction.ofCode (n : Nat) : RuleAction :=
  match n with
  | 0 => .none | 1 => .dowser | 2 => .stop
  | _ => .loss

/-- R147: the rule a SET RULE carries, none where it is refused RANGE. Match bits outside the mask are
written clear. -/
def readRuleRecord (x : Vector Byte 5) : Option Rule :=
  let active := x[0].getLsbD 0
  let persistence := x[4].toNat
  match Qualifier.ofCode ((x[0] >>> 1) &&& 3).toNat with
  | none => none
  | some q =>
    if persistence < 1 ∨ 8 < persistence then none
    else if active && x[2] == 0 then none
    else some
      { active := active
        positions := x[1]
        qualifier := q
        mask := x[2]
        values := x[3] &&& x[2]
        persistence := persistence
        severity := if x[0].getLsbD 3 then .major else .minor
        action := RuleAction.ofCode ((x[0] >>> 4) &&& 3).toNat }

def ruleOctet0 (x : Rule) : Byte :=
  bitOf x.active 0 ||| byteOf (2 * x.qualifier.code) ||| bitOf x.severity.bit 3
    ||| byteOf (16 * x.action.code)

/-! ### Gauge, rate, verdicts -/

def Gauge.ofOctet (b : Byte) : Option Gauge :=
  match b.toNat with
  | 35 => some .mm35 | 16 => some .mm16
  | _ => none

def Rate.ofOctet (b : Byte) : Option Rate :=
  match b.toNat with
  | 24 => some .fps24 | 25 => some .fps25 | 30 => some .fps30
  | _ => none

def Verdict.ofOctet (b : Byte) : Option Verdict :=
  match b.toNat with
  | 0 => some .pass | 1 => some .block | 2 => some .force
  | _ => none

/-- Frames to the foot (00, Footage). -/
def Gauge.framesPerFoot : Gauge → Nat
  | .mm35 => 16
  | .mm16 => 40

end Sys2Proof.Machine
end

