-- ==== Sys2Proof/Machine/Requests.lean ====
section
/-! DEFINITION. The requests: each one's checks, in the order its rule gives them, its effects and its
reply data (R22 to R24, R67 to R77, R123 to R125, R136, R137, R147, R148, R152, R155 to R157, R163 to
R170). -/

namespace Sys2Proof.Machine

/-- What the blocks read of a state (R5). -/
def State.env (s : State) : Env := { setup := s.setup, sweep := s.port.sweep }

/-- The blocks act, and every hand-off that follows is taken. -/
def State.act (f : Env → Run → Run) (s : State) : State :=
  { s with run := drain s.env (f s.env s.run) }

/-- A result, the ten data octets, and the state the request leaves (R163). -/
structure Answer where
  result : Result
  data : Vector Byte 10
  state : State
  deriving DecidableEq, Repr

/-- R165: a refusal leaves the part as it was, with data octets 0 (R164). -/
def refuse (why : Result) (s : State) : Answer := { result := why, data := data10, state := s }

def answerDone (d : Vector Byte 10) (s : State) : Answer := { result := .done, data := d, state := s }

/-- A number whose bit k is set where the k-th of the list is true. -/
def bitsOf : List Bool → Nat
  | [] => 0
  | b :: bs => (if b then 1 else 0) + 2 * bitsOf bs

/-! ### Positions (R22 to R24) -/

/-- A definition read from its octets; none where R22 refuses it RANGE. -/
def readPosDef (station gauge rate : Byte) : Option PosDef :=
  match stationOf station, Gauge.ofOctet gauge, Rate.ofOctet rate with
  | some st, some g, some f => some { station := st, gauge := g, rate := f }
  | _, _, _ => none

/-- R174: station 255 is the undefine; `none` is a RANGE. -/
def readPosition? (station gauge rate : Byte) : Option (Option PosDef) :=
  if station = 255 then some none else (readPosDef station gauge rate).map some

/-- R22, R123: a chain that may not be touched: neither DARK nor UNKNOWN. -/
def chainBusy (r : Run) (c : Fin 4) : Bool :=
  chainState r c != .dark && chainState r c != .unknown

/-- R22, R123: a defined position that is not at rest. -/
def positionBusy (su : Setup) (r : Run) (p : Fin 8) : Bool :=
  definedPos su p && !(motionOf r p).atRest

/-- R22: BUSY. -/
def definePositionBusy (su : Setup) (r : Run) (p : Fin 8) : Bool :=
  positionBusy su r p ||
    match chainOf su p with
    | some (c, _) => chainBusy r c
    | none => false

/-- R22: CONFLICT. -/
def definePositionConflict (own : Station) (su : Setup) (p : Fin 8) (d : PosDef) : Bool :=
  d.station == own
    || (positionAt { su with positions := su.positions.set p none } d.station).isSome
    || (chainAt su d.station).isSome

/-- Every rule's counter for a position to 0 (R142). -/
def clearCountersOf (p : Fin 8) (r : Run) : Run :=
  { r with counters := r.counters.mapIdx (fun _ row => row.set p 0) }

/-- R23: withdraw the old station's orders where the station has changed or is gone. -/
def withdrawOld (old new : Option PosDef) (r : Run) : Run :=
  match old with
  | none => r
  | some d => if (new.map PosDef.station) = some d.station then r else withdrawStation d.station r

/-- R23: what the blocks do at a redefinition of p, in the new environment (log 18). -/
def redefinePosition (p : Fin 8) (old new : Option PosDef) (e : Env) (r : Run) : Run :=
  let r1 := ((restartMotion p r).setRunoutRaised p false).setTailStopped p false
  let r2 := endScanHold e p (fun _ => ScanRec.restarted) r1
  let r3 := clearCountersOf p (restartLamp e p r2)
  workRoles e (withdrawOld old new r3)

/-- R22, R23: DEFINE POSITION. -/
def reqDefinePosition (position station gauge rate : Byte) (s : State) : Answer :=
  match indexOf 8 position, readPosition? station gauge rate with
  | some p, some new =>
    if definePositionBusy s.setup s.run p then refuse .busy s
    else if new.any (definePositionConflict s.port.own s.setup p) then refuse .conflict s
    else
      let old := s.setup.positions.get p
      let s1 := { s with setup := { s.setup with positions := s.setup.positions.set p new } }
      answerDone data10 (s1.act (redefinePosition p old new))
  | _, _ => refuse .range s

/-- R24: whether the reel's hold is HOLD or WAIT. -/
def heldFlag (r : Run) (p : Fin 8) : Bool := (r.scans.get p).hold != .none

/-- The state view of READ POSITION (11, section 11.5). -/
def stateView (s : State) (p : Fin 8) : Vector Byte 10 :=
  let m := s.run.motions.get p
  let l := s.run.lamps.get p
  let d := s.setup.positions.get p
  let station : Byte := match d with | some x => x.station.setWidth 8 | none => 0
  let gauge := match d with | some x => x.gauge.code | none => 0
  let rate := match d with | some x => x.rate.code | none => 0
  data10
    (station ||| bitOf d.isSome 6 ||| bitOf (heldFlag s.run p) 7)
    (byteOf (gauge + 2 * rate + 8 * m.motion.code) ||| bitOf m.stallFlag 6 ||| bitOf m.silent 7)
    (byteOf (l.lamp.code + 8 * l.dowser.code + 32 * (roleOf s.setup s.run p).code)
      ||| bitOf m.referenced 7)
    m.signals
    (byteOf (s.run.scans.get p).cursor)
    (hi24 m.value) (mid24 m.value) (lo24 m.value)

/-- The place view of READ POSITION, with the footage of R24. -/
def placeView (s : State) (p : Fin 8) : Vector Byte 10 :=
  let m := s.run.motions.get p
  let gauge := match s.setup.positions.get p with | some x => x.gauge | none => .mm35
  let size := m.value.natAbs
  let feet := BitVec.ofNat 16 (size / gauge.framesPerFoot)
  data10 (hi24 m.value) (mid24 m.value) (lo24 m.value)
    (bitOf (decide (m.value < 0)) 0 ||| bitOf (gauge == .mm16) 1)
    (hi16 feet) (lo16 feet) (byteOf (size % gauge.framesPerFoot))
    (byteOf (s.run.scans.get p).cursor) (bitOf m.referenced 0)

/-- R24: READ POSITION; view 1 is place, any other state. -/
def reqReadPosition (position view : Byte) (s : State) : Answer :=
  match indexOf 8 position with
  | some p => answerDone (if view = 1 then placeView s p else stateView s p) s
  | none => refuse .range s

/-! ### Chains (R123 to R125) -/

/-- A port octet: 255 absent, 0 to 7 a position; none where it is refused RANGE. -/
def readPort (b : Byte) : Option (Option (Fin 8)) :=
  if b = 255 then some none else (indexOf 8 b).map some

/-- R172: a one-octet yes-or-no field reads no for 0. -/
def readChainDef (station port0 port1 caption : Byte) : Option ChainDef :=
  match stationOf station, readPort port0, readPort port1 with
  | some st, some a, some b =>
    some { station := st, port0 := a, port1 := b, caption := caption != 0 }
  | _, _, _ => none

def readChain? (station port0 port1 caption : Byte) : Option (Option ChainDef) :=
  if station = 255 then some none else (readChainDef station port0 port1 caption).map some

/-- The positions a definition names. -/
def chainPositions (d : Option ChainDef) : List (Fin 8) :=
  match d with
  | some d => d.port0.toList ++ d.port1.toList
  | none => []

/-- R123: BUSY. -/
def defineChainBusy (su : Setup) (r : Run) (c : Fin 4) (new : Option ChainDef) : Bool :=
  let old := su.chains.get c
  (old.isSome && chainBusy r c)
    || (chainPositions old ++ chainPositions new).any (positionBusy su r)

/-- R123: a position named is a port of another defined chain. -/
def portTaken (su : Setup) (c : Fin 4) (p : Fin 8) : Bool :=
  match chainOf { su with chains := su.chains.set c none } p with
  | some _ => true
  | none => false

/-- R123: CONFLICT. -/
def defineChainConflict (own : Station) (su : Setup) (c : Fin 4) (d : ChainDef) : Bool :=
  d.station == own
    || (positionAt su d.station).isSome
    || (chainAt { su with chains := su.chains.set c none } d.station).isSome
    || (chainPositions (some d)).any (portTaken su c)
    || (d.port0.isSome && d.port0 == d.port1)

/-- R100: the runout raised and tail stopped flags of positions cleared. -/
def clearRunoutFlags (r : Run) (p : Fin 8) : Run :=
  (r.setRunoutRaised p false).setTailStopped p false

/-- R100, R123, R133: what the blocks do at a redefinition of a chain. -/
def redefineChain (c : Fin 4) (old new : Option ChainDef) (e : Env) (r : Run) : Run :=
  let r1 := r.modChain c (fun _ => ChainRec.restarted)
  let r2 := (chainPositions old ++ chainPositions new).foldl clearRunoutFlags r1
  let r3 := match old with | some d => withdrawStation d.station r2 | none => r2
  workRoles e r3

/-- R123: DEFINE CHAIN. -/
def reqDefineChain (chain station port0 port1 caption : Byte) (s : State) : Answer :=
  match indexOf 4 chain, readChain? station port0 port1 caption with
  | some c, some new =>
    if defineChainBusy s.setup s.run c new then refuse .busy s
    else if new.any (defineChainConflict s.port.own s.setup c) then refuse .conflict s
    else
      let old := s.setup.chains.get c
      let s1 := { s with setup := { s.setup with chains := s.setup.chains.set c new } }
      answerDone data10 (s1.act (redefineChain c old new))
  | _, _ => refuse .range s

/-- R124: the mode a SET CHAIN MODE carries; none where it is refused RANGE. -/
def readMode (mode holdLimit switchLimit runoutGuard : Byte) : Option ChainMode :=
  let h := holdLimit.toNat
  let w := switchLimit.toNat
  if 5 ≤ h ∧ h ≤ 250 ∧ 2 ≤ w ∧ w ≤ 10 then
    some { armed := mode.getLsbD 0, fallback := mode.getLsbD 1, holdLimit := h, switchLimit := w,
           runoutGuard := runoutGuard.toNat }
  else none

/-- R124: what the blocks do at a change of mode: the disarming (R95), then the runout of both ports (R119), the guard
of R118 with it, then the reaction of R118; the order is the model's choice (log 44). -/
def changeMode (c : Fin 4) (old new : ChainMode) (e : Env) (r : Run) : Run :=
  let r1 := if old.armed && !new.armed then evaluateBoth e .change c r else r
  let r2 :=
    if old.runoutGuard != new.runoutGuard || old.fallback != new.fallback then
      evaluatePorts e false c r1
    else r1
  if !old.fallback && new.fallback then reapplyLoss e c r2 else r2

/-- R124: SET CHAIN MODE. -/
def reqSetChainMode (chain mode holdLimit switchLimit runoutGuard : Byte) (s : State) : Answer :=
  match indexOf 4 chain, readMode mode holdLimit switchLimit runoutGuard with
  | some c, some new =>
    let old := s.setup.modes.get c
    let s1 := { s with setup := { s.setup with modes := s.setup.modes.set c new } }
    answerDone data10 (s1.act (changeMode c old new))
  | _, _ => refuse .range s

/-- A port in a READ CHAIN reply: 255 absent; 0 for an undefined chain. -/
def portOctet (d : Option ChainDef) (x : Port) : Byte :=
  match d with
  | none => 0
  | some d =>
    match d.at x with
    | some p => byteOf p.val
    | none => 255

def holdTimerOctet : HoldTimer → Byte
  | .idle => 255
  | .running n => byteOf n
  | .expired => 254

def switchTimerOctet : Option Nat → Byte
  | none => 255
  | some n => byteOf n

/-- The data of READ CHAIN (11, section 11.5). The caption bit of an undefined chain is 0 (log 47). -/
def chainView (s : State) (c : Fin 4) : Vector Byte 10 :=
  let d := s.setup.chains.get c
  let m := s.setup.modes.get c
  let x := s.run.chains.get c
  let station : Byte := match d with | some d => d.station.setWidth 8 | none => 0
  let kind := match x.target with | some (_, k) => k.code | none => 0
  data10
    (station ||| bitOf d.isSome 6 ||| bitOf (d.any ChainDef.caption) 7)
    (portOctet d .zero) (portOctet d .one)
    (bitOf m.armed 0 ||| bitOf m.fallback 1 ||| byteOf (4 * x.state.code))
    (byteOf m.holdLimit) (byteOf m.switchLimit) (byteOf m.runoutGuard)
    (byteOf (inputField x.observed + 8 * inputField (x.target.map Prod.fst) + 64 * kind))
    (holdTimerOctet x.holdTimer) (switchTimerOctet x.switchTimer)

/-- R125: READ CHAIN. -/
def reqReadChain (chain : Byte) (s : State) : Answer :=
  match indexOf 4 chain with
  | some c => answerDone (chainView s c) s
  | none => refuse .range s

/-! ### Cue pages (R67 to R70) -/

def writeRecord (su : Setup) (g : Fin 32) (i : Fin 8) (x : Option Cue) : Setup :=
  { su with pages := su.pages.set g ((su.pages.get g).set i x) }

/-- R68: the record at a reel's cursor has been rewritten (log 22): marks 0, hold ended without a notice. -/
def cursorRewritten (g : Fin 32) (written : Fin 8 → Bool) (e : Env) (r : Run) : Run :=
  match pageMapping e.setup g with
  | none => r
  | some (p, k) =>
    if allPositions.any (fun i =>
        written i && recordIndex e.setup p k i == (r.scans.get p).cursor) then
      endScanHold e p ScanRec.released r
    else r

def writeCue (g : Fin 32) (i : Fin 8) (x : Option Cue) (s : State) : Answer :=
  answerDone data10
    ({ s with setup := writeRecord s.setup g i x }.act (cursorRewritten g (fun j => j == i)))

/-- R67: LOAD CUE. The page/record octet names a page and a record for every value (R174). -/
def reqLoadCue (pageRecord : Byte) (record : Vector Byte 9) (s : State) : Answer :=
  let g : Fin 32 := ⟨pageRecord.toNat / 8, by omega⟩
  let i : Fin 8 := ⟨pageRecord.toNat % 8, by omega⟩
  if pageLocked s.setup s.run g then refuse .locked s
  else
    match readCueRecord record with
    | .refused why => refuse why s
    | .vacant => writeCue g i none s
    | .loaded b => writeCue g i (some b) s

/-- R70: octet 9 of a READ CUE reply: position, slot, mapped, spent; 0 for a page in no slot (log 46). -/
def cueMapping (s : State) (g : Fin 32) (i : Fin 8) : Byte :=
  match pageMapping s.setup g with
  | none => 0
  | some (p, k) =>
    byteOf (p.val + 8 * k.val) ||| bitOf true 5
      ||| bitOf (decide (recordIndex s.setup p k i < (s.run.scans.get p).cursor)) 6

/-- R70, R174: a VACANT record is octets of 0. -/
def cueView (s : State) (g : Fin 32) (i : Fin 8) : Vector Byte 10 :=
  match (s.setup.pages.get g).get i with
  | none => data10 (d9 := cueMapping s g i)
  | some b =>
    let back := valueOctets (cueBackstop b)
    data10 (cueOctet0 b) (hi24 b.point) (mid24 b.point) (lo24 b.point) back.1 back.2.1 back.2.2
      (byteOf (cueOrdinal b)) b.tag (cueMapping s g i)

/-- R70: READ CUE. -/
def reqReadCue (page record : Byte) (s : State) : Answer :=
  match indexOf 32 page, indexOf 8 record with
  | some g, some i => answerDone (cueView s g i) s
  | _, _ => refuse .range s

/-- R69: CLEAR PAGE. -/
def reqClearPage (page : Byte) (s : State) : Answer :=
  match indexOf 32 page with
  | none => refuse .range s
  | some g =>
    if pageLocked s.setup s.run g then refuse .locked s
    else
      let su := { s.setup with pages := s.setup.pages.set g (Vector.replicate 8 none) }
      answerDone data10 ({ s with setup := su }.act (cursorRewritten g (fun _ => true)))

/-! ### Reel records (R71 to R77) -/

/-- A page octet of MAP PAGE: 255 absent; none where it is refused RANGE. -/
def readPage (b : Byte) : Option (Option (Fin 32)) :=
  if b = 255 then some none else (indexOf 32 b).map some

/-- R71: the page is held in a slot other than the named one. -/
def pageElsewhere (su : Setup) (p : Fin 8) (k : Fin 4) (g : Fin 32) : Bool :=
  allPositions.any (fun q =>
    allChains.any (fun j => (su.reels.get q).slots.get j == some g && !(q == p && j == k)))

def setSlot (su : Setup) (p : Fin 8) (k : Fin 4) (g : Option (Fin 32)) : Setup :=
  let x := su.reels.get p
  { su with reels := su.reels.set p { x with slots := x.slots.set k g } }

/-- R72: the remap of the reel. -/
def remapped (p : Fin 8) (e : Env) (r : Run) : Run := endScanHold e p (ScanRec.placed 0) r

/-- R71, R72: MAP PAGE. -/
def reqMapPage (position slot page : Byte) (s : State) : Answer :=
  match indexOf 8 position, indexOf 4 slot, readPage page with
  | some p, some k, some g =>
    if g.isSome && !definedPos s.setup p then refuse .range s
    else if reelLocked s.run p then refuse .locked s
    else if g.any (pageElsewhere s.setup p k) then refuse .conflict s
    else answerDone data10 ({ s with setup := setSlot s.setup p k g }.act (remapped p))
  | _, _, _ => refuse .range s

/-- R174: the last picture a SET REEL carries; none where it is refused RANGE. -/
def readLastPicture (flags : Byte) (v : Int) : Option (Option Int) :=
  if flags.getLsbD 0 then (if inRange v then some (some v) else none) else some none

/-- R73: SET REEL. The Chain Unit evaluates the position's runout (R119), the same last picture written again
included (log 37). -/
def reqSetReel (position flags : Byte) (lastPicture : Int) (s : State) : Answer :=
  match indexOf 8 position, readLastPicture flags lastPicture with
  | some p, some v =>
    if reelLocked s.run p then refuse .locked s
    else
      let x := s.setup.reels.get p
      let su := { s.setup with reels := s.setup.reels.set p { x with lastPicture := v } }
      answerDone data10 ({ s with setup := su }.act (fun e r => evaluateRunout e false p r))
  | _, _ => refuse .range s

def pageOctet : Option (Fin 32) → Byte
  | some g => byteOf g.val
  | none => 255

/-- R74: READ REEL. -/
def reqReadReel (position : Byte) (s : State) : Answer :=
  match indexOf 8 position with
  | none => refuse .range s
  | some p =>
    let x := s.setup.reels.get p
    let v := valueOctets x.lastPicture
    answerDone
      (data10 (pageOctet (x.slots.get 0)) (pageOctet (x.slots.get 1)) (pageOctet (x.slots.get 2))
        (pageOctet (x.slots.get 3)) (bitOf x.lastPicture.isSome 0) v.1 v.2.1 v.2.2
        (byteOf (s.run.scans.get p).cursor) (byteOf (listLength s.setup p)))
      s

/-- R75: the first LOADED record whose trigger position is at or above the value, else the length. -/
def placeCursor (su : Setup) (p : Fin 8) (v : Int) : Nat :=
  (cueList su p).findIdx (fun x => x.any (fun b => decide (v ≤ b.point)))

/-- R75, R76: what an accepted SET POSITION does. The runout is evaluated (R119), the same value given again
included (log 37). -/
def placePosition (p : Fin 8) (v : Int) (e : Env) (r : Run) : Run :=
  let was := (r.motions.get p).referenced
  let r1 := r.modMotion p (fun m => { m with value := v, referenced := true })
  let r2 := endScanHold e p (ScanRec.placed (placeCursor e.setup p v)) r1
  evaluateRunout e false p (if was then r2 else workConditions e p r2)

/-- R75: SET POSITION. -/
def reqSetPosition (position : Byte) (v : Int) (s : State) : Answer :=
  match indexOf 8 position with
  | none => refuse .range s
  | some p =>
    if !definedPos s.setup p || !inRange v then refuse .range s
    else if !(motionOf s.run p).atRest then refuse .locked s
    else answerDone data10 (s.act (placePosition p v))

/-- R77: RESTART CUES. -/
def reqRestartCues (position : Byte) (s : State) : Answer :=
  match indexOf 8 position with
  | none => refuse .range s
  | some p =>
    if !(motionOf s.run p).atRest then refuse .locked s
    else answerDone data10 (s.act (remapped p))

/-! ### The screen table (R136, R137) -/

/-- The row of an order kind 1 to 7. -/
def screenRow (kind : Byte) : Option (Fin 7) := indexOf 7 (kind - 1)

def readVerdicts (a b c d : Byte) : Option (Vector Verdict 4) :=
  match Verdict.ofOctet a, Verdict.ofOctet b, Verdict.ofOctet c, Verdict.ofOctet d with
  | some w, some x, some y, some z => some #v[w, x, y, z]
  | _, _, _, _ => none

/-- R136: SET SCREEN. -/
def reqSetScreen (kind onAir next idle faulted : Byte) (s : State) : Answer :=
  match screenRow kind, readVerdicts onAir next idle faulted with
  | some i, some row =>
    answerDone data10 { s with setup := { s.setup with screen := s.setup.screen.set i row } }
  | _, _ => refuse .range s

/-- R137: READ SCREEN. -/
def reqReadScreen (kind : Byte) (s : State) : Answer :=
  match screenRow kind with
  | none => refuse .range s
  | some i =>
    let row := s.setup.screen.get i
    answerDone
      (data10 (byteOf row[0].code) (byteOf row[1].code) (byteOf row[2].code) (byteOf row[3].code)) s

/-! ### Rules (R147, R148) -/

/-- A rule's counters for all eight positions to 0. -/
def clearRuleCounters (i : Fin 16) (r : Run) : Run :=
  { r with counters := r.counters.set i (Vector.replicate 8 0) }

/-- R147: SET RULE. -/
def reqSetRule (rule : Byte) (record : Vector Byte 5) (s : State) : Answer :=
  match indexOf 16 rule, readRuleRecord record with
  | some i, some x =>
    answerDone data10
      { s with
        setup := { s.setup with rules := s.setup.rules.set i x }
        run := clearRuleCounters i s.run }
  | _, _ => refuse .range s

/-- Two counters to an octet, the lower position in the low half (11, section 11.5). -/
def counterPair (low high : Nat) : Byte := byteOf (low + 16 * high)

/-- R148: READ RULE. -/
def reqReadRule (rule : Byte) (s : State) : Answer :=
  match indexOf 16 rule with
  | none => refuse .range s
  | some i =>
    let x := s.setup.rules.get i
    let n := s.run.counters.get i
    answerDone
      (data10 (ruleOctet0 x) x.positions x.mask x.values (byteOf x.persistence)
        (counterPair n[0] n[1]) (counterPair n[2] n[3]) (counterPair n[4] n[5])
        (counterPair n[6] n[7])) s

/-! ### Alarms (R152, R155 to R157) -/

/-- R155: the highest-ranked slot pending and not masked. -/
def slotToTake (r : Run) : Option (Fin 82) :=
  highest r (fun k => (r.slots.get k).pending && !masked r k)

/-- R155: the slot leaves pending, goes under service and onto the stack. -/
def takeSlot (k : Fin 82) (r : Run) : Run :=
  let r1 := r.modSlot k (fun x =>
    { x with pending := false, noticed := false, repeated := false, underService := true })
  { r1 with stack := k :: r1.stack }

/-- The data of a TAKE ALARM reply: the slot as it stood before the take. -/
def takeView (r : Run) (k : Fin 82) : Vector Byte 10 :=
  let x := r.slots.get k
  let v := valueOctets x.value
  data10 (byteOf k.val) (slotFlags r k) (x.sweep.getD 0) v.1 v.2.1 v.2.2 (ruleIndexOctet x.rule)

/-- R155: TAKE ALARM. -/
def reqTakeAlarm (s : State) : Answer :=
  match slotToTake s.run with
  | none => refuse .empty s
  | some k => answerDone (takeView s.run k) { s with run := takeSlot k s.run }

/-- R156: the noticed flag of a pending slot that the release has unmasked is cleared. -/
def renotice (before after : Run) (r : Run) (k : Fin 82) : Run :=
  if (after.slots.get k).pending && masked before k && !masked after k then
    r.modSlot k (fun x => { x with noticed := false })
  else r

/-- R156: pop the top, clear its under-service flag, and re-notice what is unmasked. -/
def releaseSlot (k : Fin 82) (rest : List (Fin 82)) (r : Run) : Run :=
  let popped := { r.modSlot k (fun x => { x with underService := false }) with stack := rest }
  allSlots.foldl (renotice r popped) popped

/-- R156: RELEASE ALARM. -/
def reqReleaseAlarm (s : State) : Answer :=
  match s.run.stack with
  | [] => refuse .empty s
  | k :: rest => answerDone (data10 (byteOf k.val)) { s with run := releaseSlot k rest s.run }

/-- The 14 enables, bit n for class n. -/
def enableBits (su : Setup) : BitVec 16 := BitVec.ofNat 16 (bitsOf su.enables.toList)

/-- R152: the enables after a mode (on or off) over a mask. -/
def changeEnables (on : Bool) (mask : BitVec 16) (en : Vector Bool 14) : Vector Bool 14 :=
  en.mapIdx (fun n b => if mask.getLsbD n then on else b)

/-- R152: SET ALARM ENABLES. -/
def reqSetAlarmEnables (mode : Byte) (mask : BitVec 16) (s : State) : Answer :=
  if 1 < mode.toNat ∨ mask.getLsbD 14 ∨ mask.getLsbD 15 then refuse .range s
  else
    let su := { s.setup with enables := changeEnables (mode == 1) mask s.setup.enables }
    answerDone (data10 (hi16 (enableBits su)) (lo16 (enableBits su))) { s with setup := su }

/-- The slots of the area and chains, 0 to 17, and of one position. -/
def areaSlots : List (Fin 82) := allSlots.take 18
def positionSlots (p : Fin 8) : List (Fin 82) := (allSlots.drop (18 + 8 * p.val)).take 8

def pendingBits (r : Run) (ks : List (Fin 82)) : Nat :=
  bitsOf (ks.map (fun k => (r.slots.get k).pending))

def serviceBits (r : Run) (ks : List (Fin 82)) : Nat :=
  bitsOf (ks.map (fun k => (r.slots.get k).underService))

/-- Group 0 of READ ALARMS. -/
def areaView (s : State) : Vector Byte 10 :=
  let a : Int := pendingBits s.run areaSlots
  let b : Int := serviceBits s.run areaSlots
  data10 (hi24 a) (mid24 a) (lo24 a) (hi24 b) (mid24 b) (lo24 b)
    (byteOf (bitsOf (s.setup.enables.toList.take 6))) (byteOf s.run.stack.length)

/-- Group 1 of READ ALARMS. -/
def positionView (s : State) (p : Fin 8) : Vector Byte 10 :=
  data10 (byteOf (pendingBits s.run (positionSlots p))) (byteOf (serviceBits s.run (positionSlots p)))
    (byteOf (bitsOf (s.setup.enables.toList.drop 6))) (byteOf s.run.stack.length)

/-- R157: READ ALARMS. -/
def reqReadAlarms (group position : Byte) (s : State) : Answer :=
  if group = 0 then answerDone (areaView s) s
  else if group = 1 then
    match indexOf 8 position with
    | some p => answerDone (positionView s p) s
    | none => refuse .range s
  else refuse .range s

/-! ### Area parameters (R166, R168) -/

/-- The range of a parameter (10, section 10.3). -/
def paramRange (code : Nat) : Option (Nat × Nat) :=
  match code with
  | 1 => some (0, 50) | 2 => some (10, 250) | 3 => some (0, 50) | 4 => some (10, 250)
  | 5 => some (25, 500) | 6 => some (10, 500) | 7 => some (3, 8) | 8 => some (2, 6)
  | 9 => some (2, 12)
  | _ => none

def Params.write (code v : Nat) (x : Params) : Params :=
  match code with
  | 1 => { x with staggerGap := v } | 2 => { x with strikeLimit := v }
  | 3 => { x with lampSettle := v } | 4 => { x with runupLimit := v }
  | 5 => { x with stopLimit := v } | 6 => { x with dwellLimit := v }
  | 7 => { x with motionWindow := v } | 8 => { x with markLength := v }
  | 9 => { x with markGap := v }
  | _ => x

def Params.read (code : Nat) (x : Params) : Nat :=
  match code with
  | 1 => x.staggerGap | 2 => x.strikeLimit | 3 => x.lampSettle | 4 => x.runupLimit
  | 5 => x.stopLimit | 6 => x.dwellLimit | 7 => x.motionWindow | 8 => x.markLength
  | 9 => x.markGap
  | _ => 0

def paramView (code : Byte) (v : Nat) : Vector Byte 10 :=
  data10 code (hi16 (BitVec.ofNat 16 v)) (lo16 (BitVec.ofNat 16 v))

/-- R166: SET PARAM. -/
def reqSetParam (code : Byte) (v : Nat) (s : State) : Answer :=
  match paramRange code.toNat with
  | none => refuse .range s
  | some (low, high) =>
    if v < low ∨ high < v then refuse .range s
    else
      answerDone (paramView code v)
        { s with setup := { s.setup with params := s.setup.params.write code.toNat v } }

/-- R168: READ PARAM. -/
def reqReadParam (code : Byte) (s : State) : Answer :=
  match paramRange code.toNat with
  | none => refuse .range s
  | some _ => answerDone (paramView code (s.setup.params.read code.toNat)) s

/-! ### RESET PART (R169) -/

/-- The run-time state restarted; the free values' own fields go on (log 1). -/
def Run.warmReset (r : Run) : Run :=
  { Run.restarted with schedule := r.schedule, choices := r.choices }

/-- R19, R169, R170: the warm reset, taken whole. -/
def warmReset (s : State) : State :=
  { s with
    port :=
      { s.port with
        reportedPositions := Vector.replicate 8 false
        reportedChains := Vector.replicate 4 false }
    run := s.run.warmReset }

def reqResetPart (s : State) : Answer := answerDone data10 (warmReset s)

/-! ### Every request (R163) -/

/-- The owning block carries the request out. -/
def carryOut : Request → State → Answer
  | .definePosition a b c d, s => reqDefinePosition a b c d s
  | .readPosition a b, s => reqReadPosition a b s
  | .defineChain a b c d f, s => reqDefineChain a b c d f s
  | .setChainMode a b c d f, s => reqSetChainMode a b c d f s
  | .readChain a, s => reqReadChain a s
  | .loadCue a x, s => reqLoadCue a x s
  | .readCue a b, s => reqReadCue a b s
  | .clearPage a, s => reqClearPage a s
  | .mapPage a b c, s => reqMapPage a b c s
  | .setReel a b v, s => reqSetReel a b v s
  | .readReel a, s => reqReadReel a s
  | .setPosition a v, s => reqSetPosition a v s
  | .restartCues a, s => reqRestartCues a s
  | .setScreen a b c d f, s => reqSetScreen a b c d f s
  | .readScreen a, s => reqReadScreen a s
  | .setRule a x, s => reqSetRule a x s
  | .readRule a, s => reqReadRule a s
  | .takeAlarm, s => reqTakeAlarm s
  | .releaseAlarm, s => reqReleaseAlarm s
  | .setAlarmEnables a m, s => reqSetAlarmEnables a m s
  | .readAlarms a b, s => reqReadAlarms a b s
  | .setParam a v, s => reqSetParam a v s
  | .readParam a, s => reqReadParam a s
  | .resetPart, s => reqResetPart s

/-- R163: a code of 0 or 25 to 255 is BADREQ and changes nothing. -/
def answerManage (m : Payload) (s : State) : Answer :=
  match Request.ofPayload m with
  | some q => carryOut q s
  | none => refuse .badreq s

end Sys2Proof.Machine
end

