-- ==== Sys2Proof/Machine/LoopPort.lean ====
section
/-! DEFINITION. The Loop Port and what the Order Unit, the Notice Unit and the Request Unit give back for
a cell (01, R1 to R17; 07, R126 to R135; 09, R154). -/

namespace Sys2Proof.Machine

/-- The part acts on cells and counts: supply present, RESET not held, monitor LOCKED (R4, R15). -/
def LoopPort.acting (p : LoopPort) : Bool := p.powered && !p.resetHeld && p.monitor == .locked

/-- R160: the contact is judged afresh. -/
def State.judged (s : State) : State :=
  { s with port := { s.port with contact := contactAsserted s.port s.run } }

/-- What a leg's output shows last (R3, log 11). -/
def LoopPort.leaves (leg : Leg) (out : Option Cell) (p : LoopPort) : LoopPort :=
  match leg with
  | .outbound => { p with loopOut := out }
  | .ret => { p with loopRet := out }

/-- What a cell brings about, and the cell that leaves in its place (R3). -/
structure Passage where
  out : Cell
  state : State
  deriving DecidableEq, Repr

/-- R3: the cell leaves octet for octet as it arrived, and nothing else comes of it. -/
def forward (c : Cell) (s : State) : Passage := { out := c, state := s }

/-! ### HEAD (R5, R17) -/

/-- R5: the current sweep number, the silence timer restarted, the monitor LOCKED. -/
def LoopPort.takeHead (sweep : Byte) (p : LoopPort) : LoopPort :=
  { p with sweep := sweep, silence := some 0, monitor := .locked }

/-- Both reported sets emptied (R13, R17). -/
def LoopPort.emptyReported (p : LoopPort) : LoopPort :=
  { p with
    reportedPositions := Vector.replicate 8 false
    reportedChains := Vector.replicate 4 false }

/-- R5, R17: a valid outbound HEAD. -/
def takeHead (m : Payload) (s : State) : State :=
  let s1 := { s with port := s.port.takeHead m[0] }
  if s.port.monitor = .lost then
    { s1 with port := s1.port.emptyReported, run := regain s1.env s1.run }
  else s1

/-! ### MANAGE (R6, R163, R164) -/

/-- R3, R164: the REPLY, from the part's own station. -/
def replyCell (m : Payload) (s : State) (a : Answer) : Cell :=
  Cell.make .reply (s.port.own.setWidth 8) (replyPayload m[0] m[1] s.port.sweep a.result a.data)

/-- R6: a MANAGE cell addressed to the part is answered in place; any other is forwarded. -/
def takeManage (c : Cell) (s : State) : Passage :=
  if stationOf c.station = some s.port.own then
    let a := answerManage c.payload s
    { out := replyCell c.payload s a, state := a.state }
  else forward c s

/-! ### Offers to the Order Unit (R8, R134, R135) -/

/-- An operation on the position at a station, if one is defined there. -/
def atPosition (e : Env) (st : Station) (f : Fin 8 → Run → Run) (r : Run) : Run :=
  match positionAt e.setup st with
  | some p => f p r
  | none => r

/-- An operation on the chain with a multiplexer station, if one is defined with it. -/
def atChain (e : Env) (st : Station) (f : Fin 4 → Run → Run) (r : Run) : Run :=
  match chainAt e.setup st with
  | some c => f c r
  | none => r

/-- R135: the insertion handed to the block that takes it. -/
def handInsertion (e : Env) (x : OrderEntry) (r : Run) : Run :=
  match x.order with
  | .start => atPosition e x.station (startTaken e) r
  | .stop => atPosition e x.station (stopTaken e) r
  | .dowserClose => atPosition e x.station dowserCloseTaken r
  | .select _ => atChain e x.station selectInserted r
  | .dowserOpen | .lampUp | .lampDown => r

/-- R134: the entry leaves the queue and is handed on. -/
def insertOrder (x : OrderEntry) (e : Env) (r : Run) : Run := handInsertion e x (removeOrder x r)

/-- R8, R134: a VOID offered to the Order Unit. -/
def offerOrder (void : Cell) (s : State) : Passage :=
  match chooseOrder s.run.orders with
  | some x => { out := orderCell x, state := s.act (insertOrder x) }
  | none => forward void s

/-! ### The screen (R126 to R131) -/

/-- A desk order that suits its station: an order for a position, or a SELECT for a chain. -/
inductive DeskOrder
  | position (st : Station) (p : Fin 8) (o : Order)
  | select (st : Station) (c : Fin 4) (i : Input)
  deriving DecidableEq, Repr

def DeskOrder.station : DeskOrder → Station
  | .position st _ _ => st
  | .select st _ _ => st

def DeskOrder.order : DeskOrder → Order
  | .position _ _ o => o
  | .select _ _ i => .select i

/-- R126: the order of a cell, where its kind suits its station. -/
def deskOrder (su : Setup) (station : Byte) (m : Payload) : Option DeskOrder :=
  match stationOf station, Order.ofOctets m[0] m[1] with
  | some st, some (.select i) => (chainAt su st).map (fun c => .select st c i)
  | some st, some o => (positionAt su st).map (fun p => .position st p o)
  | _, _ => none

/-- The force flag of an ORDER cell (11, section 11.2). -/
def forceFlag (m : Payload) : Bool := m[2].getLsbD 1

/-- R127: the role column of a SELECT. -/
def selectColumn (su : Setup) (r : Run) (c : Fin 4) (i : Input) : Role :=
  match i.port.bind (portPosition su c) with
  | some p => roleOf su r p
  | none => .idle

/-- R127: the role column. -/
def columnOf (su : Setup) (r : Run) : DeskOrder → Role
  | .position _ p _ => roleOf su r p
  | .select _ c i => selectColumn su r c i

/-- The row of the screen table (R138). -/
def Order.row : Order → Fin 7
  | .start => 0 | .stop => 1 | .lampUp => 2 | .lampDown => 3
  | .dowserOpen => 4 | .dowserClose => 5 | .select _ => 6

/-- The column of the screen table (R138). -/
def Role.column : Role → Fin 4
  | .onAir => 0 | .next => 1 | .idle => 2 | .faulted => 3

/-- R128: why a verdict blocks, if it does. -/
def Verdict.blocks (force : Bool) : Verdict → Option BlockReason
  | .pass => none
  | .block => some .table
  | .force => if force then none else some .unforced

/-- R127: a SELECT to a chain in SWITCHING. -/
def DeskOrder.cutsAcross (r : Run) : DeskOrder → Bool
  | .select _ c _ => chainState r c == .switching
  | .position .. => false

/-- R127, R128: why a desk order is blocked; none where it passes. -/
def screened (su : Setup) (r : Run) (d : DeskOrder) (force : Bool) : Option BlockReason :=
  if d.cutsAcross r then some .switching
  else ((su.screen.get d.order.row).get (columnOf su r d).column).blocks force

/-- R130: the table of hand-offs of a passed order. -/
def handDeskOrder (e : Env) (d : DeskOrder) (r : Run) : Run :=
  match d with
  | .position _ p .start => startTaken e p r
  | .position _ p .stop => stopTaken e p r
  | .position _ p .lampDown => lampDownTaken e p r
  | .position _ p .dowserClose => dowserCloseTaken p r
  | .position _ _ .dowserOpen | .position _ _ .lampUp | .position _ _ (.select _) => r
  | .select _ c i => deskSelect e c i r

/-- R130: desk supersession, then the hand-off. -/
def passOrder (d : DeskOrder) (e : Env) (r : Run) : Run :=
  handDeskOrder e d (supersede d.station d.order.family r)

/-- R129: the BLOCKED notice. -/
def blockOrder (d : DeskOrder) (why : BlockReason) (e : Env) (r : Run) : Run :=
  queueNotice e (.blocked d.station d.order (columnOf e.setup r d) why) r

/-- R129 to R131: what becomes of a screened order. The BLOCKED notice joins the notice queue before the notices that
an insertion in the VOID's place brings (log 51). -/
def takeDeskOrder (c : Cell) (d : DeskOrder) (s : State) : Passage :=
  match screened s.setup s.run d (forceFlag c.payload), d with
  | some why, _ => offerOrder Cell.void (s.act (blockOrder d why))
  | none, .position _ p .lampUp => offerOrder Cell.void (s.act (fun e r => strikeRequest e p .ordinary r))
  | none, _ => forward c (s.act (passOrder d))

/-- R7, R126: an outbound ORDER; one that does not suit its station is forwarded unscreened. -/
def takeOrder (c : Cell) (s : State) : Passage :=
  match deskOrder s.setup c.station c.payload with
  | some d => takeDeskOrder c d s
  | none => forward c s

/-! ### Reports (R10, R11, R173) -/

/-- The position a STATE cell belongs to (R2). -/
def reportingPosition (su : Setup) (station : Byte) : Option (Fin 8) :=
  (stationOf station).bind (positionAt su)

/-- The chain a MUX cell belongs to (R2). -/
def reportingChain (su : Setup) (station : Byte) : Option (Fin 4) :=
  (stationOf station).bind (chainAt su)

/-- R10: the first report of a position in the sweep. -/
def deliverState (p : Fin 8) (m : Payload) (s : State) : State :=
  { s with port := { s.port with reportedPositions := s.port.reportedPositions.set p true } }.act
    (fun e r => takeReport e p m[0] (read16 m[1] m[2]) r)

/-- R10: a return STATE. -/
def takeState (c : Cell) (s : State) : State :=
  match reportingPosition s.setup c.station with
  | some p => if s.port.reportedPositions.get p then s else deliverState p c.payload s
  | none => s

/-- R11: the first report of a chain in the sweep. -/
def deliverMux (c : Fin 4) (i : Input) (s : State) : State :=
  { s with port := { s.port with reportedChains := s.port.reportedChains.set c true } }.act
    (fun e r => takeMux e c i r)

/-- R11, R173: a return MUX; an input of 4 or more is not delivered. -/
def takeMuxCell (c : Cell) (s : State) : State :=
  match reportingChain s.setup c.station, Input.ofCode c.payload[0].toNat with
  | some k, some i => if s.port.reportedChains.get k then s else deliverMux k i s
  | _, _ => s

/-! ### Offers to the Notice Unit (R12, R154) -/

/-- R154: the highest-ranked slot that is pending, not noticed and not masked. -/
def slotToNotice (r : Run) : Option (Fin 82) :=
  highest r (fun k => (r.slots.get k).pending && !(r.slots.get k).noticed && !masked r k)

/-- A NOTICE from the part's own station (R3). -/
def noticeCell (s : State) (m : Payload) : Cell := Cell.make .notice (s.port.own.setWidth 8) m

def noteSlot (k : Fin 82) (r : Run) : Run := r.modSlot k (fun x => { x with noticed := true })

/-- R12, R154: a VOID offered to the Notice Unit. -/
def offerNotice (void : Cell) (s : State) : Passage :=
  match slotToNotice s.run with
  | some k =>
    { out := noticeCell s (alarmPayload s.port.sweep s.run k), state := { s with run := noteSlot k s.run } }
  | none =>
    match s.run.notices with
    | n :: rest => { out := noticeCell s (noticePayload n), state := { s with run := { s.run with notices := rest } } }
    | [] => forward void s

/-! ### The sweep end (R13) -/

/-- R13: the sweep-end event with the reported set, then both sets emptied. -/
def takeTail (s : State) : State :=
  let s1 := s.act (fun e r => sweepEnd e s.port.reportedPositions r)
  { s1 with port := s1.port.emptyReported }

/-! ### Cells on the legs -/

/-- R5 to R9: a valid outbound cell while LOCKED. -/
def takeOutbound (k : CellKind) (c : Cell) (s : State) : Passage :=
  match k with
  | .head => forward c (takeHead c.payload s)
  | .manage => takeManage c s
  | .order => takeOrder c s
  | .void => offerOrder c s
  | .tail | .state | .mux | .reply | .notice => forward c s

/-- R10 to R14: a valid return cell while LOCKED. -/
def takeReturn (k : CellKind) (c : Cell) (s : State) : Passage :=
  match k with
  | .state => forward c (takeState c s)
  | .mux => forward c (takeMuxCell c s)
  | .void => offerNotice c s
  | .tail => forward c (takeTail s)
  | .order | .manage | .reply | .notice | .head => forward c s

/-- R15: in SEARCHING and LOST only an outbound HEAD is acted on. -/
def takeUnlocked (leg : Leg) (k : CellKind) (c : Cell) (s : State) : Passage :=
  match leg, k with
  | .outbound, .head => forward c (takeHead c.payload s)
  | _, _ => forward c s

/-- A valid cell of a part that is not held. -/
def takeCell (leg : Leg) (k : CellKind) (c : Cell) (s : State) : Passage :=
  if s.port.monitor = .locked then
    match leg with
    | .outbound => takeOutbound k c s
    | .ret => takeReturn k c s
  else takeUnlocked leg k c s

/-- R1, R4: an invalid cell, and any cell while RESET is held, is forwarded and otherwise ignored. -/
def passage (leg : Leg) (c : Cell) (s : State) : Passage :=
  if s.port.resetHeld || !c.valid then forward c s
  else
    match c.kind? with
    | some k => takeCell leg k c s
    | none => forward c s

/-- A cell that arrives on a leg: its effects, the cell that leaves, and the contact judged afresh
(R160). What leaves a part without supply is a free value (log 10). -/
def receive (leg : Leg) (c : Cell) (s : State) : State :=
  if s.port.powered then
    let x := passage leg c s
    { x.state with port := x.state.port.leaves leg (some x.out) }.judged
  else { s with port := s.port.leaves leg (Config.unpoweredCell leg c) }.judged

end Sys2Proof.Machine
end

