-- ==== Sys2Proof/Machine/CellCommands.lean ====
section
/-! DEFINITION. The meanings of the rows that are cells on the loop (01). Each puts its cell on its leg:
what the part does with it there is `receive`. -/

namespace Sys2Proof.Machine

/-- INVALID_CELL: R1. -/
def execInvalidCell (leg : Leg) (cell : Cell) (s : State) : Host.Outcome State Fault Refusal :=
  .next (receive leg cell s)

/-- CELL_IN_SEARCHING_OR_LOST: R15. -/
def execCellInSearchingOrLost (leg : Leg) (cell : Cell) (s : State) : Host.Outcome State Fault Refusal :=
  .next (receive leg cell s)

/-- OUTBOUND_HEAD: R5, R17. -/
def execOutboundHead (station : Byte) (payload : Payload) (s : State) : Host.Outcome State Fault Refusal :=
  .next (receive .outbound (Cell.make .head station payload) s)

/-- OUTBOUND_MANAGE: R6. -/
def execOutboundManage (station : Byte) (payload : Payload) (s : State) : Host.Outcome State Fault Refusal :=
  .next (receive .outbound (Cell.make .manage station payload) s)

/-- OUTBOUND_ORDER: R7, R126 to R131. -/
def execOutboundOrder (station : Byte) (payload : Payload) (s : State) : Host.Outcome State Fault Refusal :=
  .next (receive .outbound (Cell.make .order station payload) s)

/-- OUTBOUND_VOID: R8, R134, R135. -/
def execOutboundVoid (station : Byte) (payload : Payload) (s : State) : Host.Outcome State Fault Refusal :=
  .next (receive .outbound (Cell.make .void station payload) s)

/-- OUTBOUND_PASSTHROUGH: R9. -/
def execOutboundPassthrough (kind : OutboundPassKind) (station : Byte) (payload : Payload) (s : State) :
    Host.Outcome State Fault Refusal :=
  .next (receive .outbound (Cell.make kind.kind station payload) s)

/-- RETURN_PASSTHROUGH: R14. -/
def execReturnPassthrough (kind : ReturnPassKind) (station : Byte) (payload : Payload) (s : State) :
    Host.Outcome State Fault Refusal :=
  .next (receive .ret (Cell.make kind.kind station payload) s)

/-- RETURN_STATE: R10, R25. -/
def execReturnState (station : Byte) (payload : Payload) (s : State) : Host.Outcome State Fault Refusal :=
  .next (receive .ret (Cell.make .state station payload) s)

/-- RETURN_MUX: R11, R105, R113, R115, R173. -/
def execReturnMux (station : Byte) (payload : Payload) (s : State) : Host.Outcome State Fault Refusal :=
  .next (receive .ret (Cell.make .mux station payload) s)

/-- RETURN_VOID: R12, R154. -/
def execReturnVoid (station : Byte) (payload : Payload) (s : State) : Host.Outcome State Fault Refusal :=
  .next (receive .ret (Cell.make .void station payload) s)

/-- SWEEP_END: R13. -/
def execSweepEnd (station : Byte) (payload : Payload) (s : State) : Host.Outcome State Fault Refusal :=
  .next (receive .ret (Cell.make .tail station payload) s)

end Sys2Proof.Machine
end

