-- ==== Sys2Proof/Machine/Events.lean ====
section
/-! DEFINITION. The rows that name one internal step of the part: the one count or report that brings the
event, and what follows from it (log 4). Each is also carried out inside SWEEP_END or RETURN_STATE. -/

namespace Sys2Proof.Machine

/-- One event of the blocks: the count is made, and where the event is then due it is carried out with
all it hands on. Where it is not due, or the part is not LOCKED (R15), nothing happens (log 4). -/
def State.event (count : Env → Run → Run) (due : Env → Run → Bool) (act : Env → Run → Run) (s : State) :
    State :=
  if s.port.acting && due s.env (count s.env s.run) then
    { s with run := drain s.env (act s.env (count s.env s.run)) }.judged
  else s

/-- R41. -/
def silentEvent (p : Fin 8) (s : State) : State :=
  s.event (fun _ r => r.modMotion p MotionRec.countMiss) (fun e r => silentIsDue e p r)
    (fun e r => becomeSilent e p r)

/-- R35. -/
def runupEvent (p : Fin 8) (s : State) : State :=
  s.event (fun _ r => r.modMotion p MotionRec.countRunup) (fun e r => runupIsDue e p r)
    (fun e r => expireRunup e p r)

/-- R36. -/
def stopEvent (p : Fin 8) (s : State) : State :=
  s.event (fun _ r => r.modMotion p MotionRec.countStop) (fun e r => stopIsDue e p r)
    (fun e r => expireStop e p r)

/-- R52. -/
def settleEvent (p : Fin 8) (s : State) : State :=
  s.event (fun _ r => r.modLamp p LampRec.countSettle) (fun e r => settleIsDue e p r)
    (fun e r => expireSettle e p r)

/-- R55. -/
def strikeEvent (p : Fin 8) (s : State) : State :=
  s.event (fun _ r => r.modLamp p LampRec.countStrike) (fun e r => strikeIsDue e p r)
    (fun e r => expireStrike e p r)

/-- R56. -/
def gapEvent (s : State) : State := s.event (fun _ r => countGap r) gapIsDue expireGap

/-- R59. -/
def dwellEvent (p : Fin 8) (s : State) : State :=
  s.event (fun e r => countDwell e p r) (fun e r => dwellIsDue e p r) (fun e r => expireDwell e p r)

/-- R108. -/
def holdEvent (c : Fin 4) (s : State) : State :=
  s.event (fun e r => countHold e c r) (fun _ r => holdIsDue c r) (fun _ r => expireHold c r)

/-- R114. -/
def switchEvent (c : Fin 4) (s : State) : State :=
  s.event (fun _ r => countSwitch c r) (fun e r => switchIsDue e c r) (fun e r => expireSwitch e c r)

/-- R54: the gate is FREE and an entry is eligible. -/
def grantIsDue (r : Run) : Bool := r.gate == .free && (nextStrike r).isSome

/-- R54. -/
def grantEvent (s : State) : State :=
  s.event (fun _ r => r) (fun _ r => grantIsDue r) offerGrant

/-- R38: the stall count after one more report without an advance, of a LOCKED position. -/
def nextStall (r : Run) (p : Fin 8) : Nat := (r.motions.get p).stall + 1

/-- R38: that count reaches W and not 2W. -/
def stallFlagDue (e : Env) (p : Fin 8) (r : Run) : Bool :=
  motionOf r p == .locked && decide (e.setup.params.motionWindow ≤ nextStall r p)
    && decide (nextStall r p < 2 * e.setup.params.motionWindow)

/-- R38: that count reaches 2W. -/
def stallBreakDue (e : Env) (p : Fin 8) (r : Run) : Bool :=
  motionOf r p == .locked && decide (2 * e.setup.params.motionWindow ≤ nextStall r p)

/-- R38. -/
def stallFlagEvent (p : Fin 8) (s : State) : State :=
  s.event (fun _ r => r) (fun e r => stallFlagDue e p r) (fun e r => countStall e p r)

/-- R38, R44: the stalled count, with the change of motion state handed on. -/
def stalledOut (e : Env) (p : Fin 8) (r : Run) : Run :=
  handIfChanged e p (r.motions.get p) (countStall e p r)

/-- R38, R39. -/
def stallBreakEvent (p : Fin 8) (s : State) : State :=
  s.event (fun _ r => r) (fun e r => stallBreakDue e p r) (fun e r => stalledOut e p r)

/-- R98: whether one more report with DOT brings the run to exactly K after a clear run of at least Q. -/
def markDue (e : Env) (p : Fin 8) (r : Run) : Bool :=
  let x := r.scans.get p
  definedPos e.setup p
    && x.recognises e.setup.params.markLength e.setup.params.markGap (x.takeDot true)

/-- R82, R98, R99: a report with DOT and no advance that completes a mark. -/
def markEvent (p : Fin 8) (s : State) : State :=
  s.event (fun _ r => r) (fun e r => markDue e p r) (fun e r => takeCueReport e p true false r)

/-- R143: whether a report with these signals would fire a rule for p, by its motion as it stands. -/
def ruleDue (e : Env) (p : Fin 8) (signals : Byte) (r : Run) : Bool :=
  definedPos e.setup p && anyRuleFires e r p signals (motionOf r p)

/-- R141, R143, R144: the Rule Unit's share of that report (log 5). -/
def ruleEvent (p : Fin 8) (signals : Byte) (s : State) : State :=
  s.event (fun _ r => r) (fun e r => ruleDue e p signals r)
    (fun e r => takeRuleReport e p signals (motionOf r p) r)

/-! ### The silence timer (R16) -/

/-- R16: the monitor passes to LOST, the timer stops, LOOP is raised. -/
def loseLoop (s : State) : State :=
  { s with
    port := { s.port with monitor := .lost, silence := none }
    run := raiseChain s.env slotLoop s.run }.judged

/-- R16: the 100 ms have passed, where the timer runs (log 7). -/
def silenceExpires (s : State) : State := if s.port.acting then loseLoop s else s

/-- One cycle of CLK: the silence timer counts (R16, log 6). -/
def clockCycle (s : State) : State :=
  if s.port.acting then
    match s.port.silence with
    | some n =>
      if Config.silenceLimit ≤ n + 1 then loseLoop s
      else { s with port := { s.port with silence := some (n + 1) } }
    | none => s
  else s

end Sys2Proof.Machine
end

