-- ==== Sys2Proof/Machine/Resets.lean ====
section
/-! DEFINITION. RESET, power-on and the loss of supply (01, R4, R18; 10, R171). The warm reset stands
with its request, in Requests. -/

namespace Sys2Proof.Machine

/-- R18, R171: every block at its full reset values, the straps read. The free values' own fields go on
(log 1); the commands that wait are the sender's and stay (log 27). -/
def fullReset (straps : BitVec 6) (s : State) : State :=
  { s with
    port := s.port.fullReset straps
    setup := Setup.initial
    run := s.run.warmReset }

/-- R4: RESET becomes active: cells are forwarded and the contact is open. -/
def resetAsserted (s : State) : State := { s with port := { s.port with resetHeld := true } }.judged

/-- R18: release of RESET completes the full reset, where the supply is present (log 9). -/
def resetReleased (straps : BitVec 6) (s : State) : State :=
  let s1 := { s with port := { s.port with resetHeld := false } }
  (if s.port.powered then fullReset straps s1 else s1).judged

/-- R171: the end of power-on (log 9). -/
def powerOn (straps : BitVec 6) (s : State) : State :=
  (fullReset straps { s with port := { s.port with powered := true } }).judged

/-- 10, section 10.5: the loss of supply loses all state; what the lost state reads as is the full reset
values (log 9). -/
def lossOfSupply (s : State) : State :=
  (fullReset s.port.straps { s with port := { s.port with powered := false } }).judged

end Sys2Proof.Machine
end

