-- ==== Sys2Proof/Machine/EventCommands.lean ====
section
/-! DEFINITION. The meanings of the rows that are no cells: the steps inside the part, the silence timer,
RESET and the supply. -/

namespace Sys2Proof.Machine

/-- MISS_COUNT_SILENT: R41. -/
def execMissCountSilent (position : Fin 8) (s : State) : Host.Outcome State Fault Refusal := .next (silentEvent position s)

/-- RUNUP_EXPIRY: R35. -/
def execRunupExpiry (position : Fin 8) (s : State) : Host.Outcome State Fault Refusal := .next (runupEvent position s)

/-- STOP_EXPIRY: R36. -/
def execStopExpiry (position : Fin 8) (s : State) : Host.Outcome State Fault Refusal := .next (stopEvent position s)

/-- STALL_FLAG: R38. -/
def execStallFlag (position : Fin 8) (s : State) : Host.Outcome State Fault Refusal := .next (stallFlagEvent position s)

/-- STALL_BREAK: R38, R39. -/
def execStallBreak (position : Fin 8) (s : State) : Host.Outcome State Fault Refusal := .next (stallBreakEvent position s)

/-- MARK_RECOGNISED: R98, R99. -/
def execMarkRecognised (position : Fin 8) (s : State) : Host.Outcome State Fault Refusal := .next (markEvent position s)

/-- SETTLE_EXPIRY: R52. -/
def execSettleExpiry (position : Fin 8) (s : State) : Host.Outcome State Fault Refusal := .next (settleEvent position s)

/-- STRIKE_EXPIRY: R55. -/
def execStrikeExpiry (position : Fin 8) (s : State) : Host.Outcome State Fault Refusal := .next (strikeEvent position s)

/-- STAGGER_GAP_EXPIRY: R56. -/
def execStaggerGapExpiry (s : State) : Host.Outcome State Fault Refusal := .next (gapEvent s)

/-- STRIKE_GRANT: R54. -/
def execStrikeGrant (s : State) : Host.Outcome State Fault Refusal := .next (grantEvent s)

/-- DWELL_EXPIRY: R59. -/
def execDwellExpiry (position : Fin 8) (s : State) : Host.Outcome State Fault Refusal := .next (dwellEvent position s)

/-- HOLD_EXPIRY: R108. -/
def execHoldExpiry (chain : Fin 4) (s : State) : Host.Outcome State Fault Refusal := .next (holdEvent chain s)

/-- SWITCH_EXPIRY: R114. -/
def execSwitchExpiry (chain : Fin 4) (s : State) : Host.Outcome State Fault Refusal := .next (switchEvent chain s)

/-- RULE_FIRE: R143. -/
def execRuleFire (position : Fin 8) (signals : Byte) (s : State) : Host.Outcome State Fault Refusal := .next (ruleEvent position signals s)

/-- SILENCE_TIMER_EXPIRY: R16. -/
def execSilenceTimerExpiry (s : State) : Host.Outcome State Fault Refusal := .next (silenceExpires s)

/-- RESET_ASSERT: R4. -/
def execResetAssert (s : State) : Host.Outcome State Fault Refusal := .next (resetAsserted s)

/-- RESET_RELEASE: R18. -/
def execResetRelease (straps : BitVec 6) (s : State) : Host.Outcome State Fault Refusal := .next (resetReleased straps s)

/-- POWER_ON: R171. -/
def execPowerOn (straps : BitVec 6) (s : State) : Host.Outcome State Fault Refusal := .next (powerOn straps s)

/-- LOSS_OF_SUPPLY: 10, section 10.5, R171. -/
def execLossOfSupply (s : State) : Host.Outcome State Fault Refusal := .next (lossOfSupply s)

end Sys2Proof.Machine
end

