-- ==== Sys2Proof/Machine/RequestCommands.lean ====
section
/-! DEFINITION. The meanings of the request rows: a MANAGE cell addressed to the part, with the request's
code, the tag and the parameter octets of 11, section 11.4 (10, R163). Octets a request does not use are 0
(log 27). -/

namespace Sys2Proof.Machine

/-- R6: a MANAGE cell with this payload, addressed to the part. -/
def request (payload : Payload) (s : State) : Host.Outcome State Fault Refusal :=
  .next (receive .outbound (Cell.make .manage (s.port.own.setWidth 8) payload) s)

/-- UNKNOWN_REQUEST: R163. -/
def execUnknownRequest (code tag : Byte) (x : Vector Byte 11) (s : State) :
    Host.Outcome State Fault Refusal :=
  request #v[code, tag, x[0], x[1], x[2], x[3], x[4], x[5], x[6], x[7], x[8], x[9], x[10]] s

/-- The three octets of a position field, most significant first (11). -/
def hi24of (w : Word24) : Byte := w.extractLsb' 16 8
def mid24of (w : Word24) : Byte := w.extractLsb' 8 8
def lo24of (w : Word24) : Byte := w.extractLsb' 0 8

/-- DEFINE_POSITION: R22. -/
def execDefinePosition (tag position station gauge rate : Byte) (s : State) :
    Host.Outcome State Fault Refusal :=
  request (payload13 1 tag position station gauge rate) s

/-- READ_POSITION: R24. -/
def execReadPosition (tag position view : Byte) (s : State) : Host.Outcome State Fault Refusal :=
  request (payload13 2 tag position view) s

/-- DEFINE_CHAIN: R123. -/
def execDefineChain (tag chain station port0 port1 caption : Byte) (s : State) :
    Host.Outcome State Fault Refusal :=
  request (payload13 3 tag chain station port0 port1 caption) s

/-- SET_CHAIN_MODE: R124. -/
def execSetChainMode (tag chain mode holdLimit switchLimit runoutGuard : Byte) (s : State) :
    Host.Outcome State Fault Refusal :=
  request (payload13 4 tag chain mode holdLimit switchLimit runoutGuard) s

/-- READ_CHAIN: R125. -/
def execReadChain (tag chain : Byte) (s : State) : Host.Outcome State Fault Refusal :=
  request (payload13 5 tag chain) s

/-- LOAD_CUE: R67. -/
def execLoadCue (tag pageRecord : Byte) (x : Vector Byte 9) (s : State) :
    Host.Outcome State Fault Refusal :=
  request (payload13 6 tag pageRecord x[0] x[1] x[2] x[3] x[4] x[5] x[6] x[7] x[8]) s

/-- READ_CUE: R70. -/
def execReadCue (tag page record : Byte) (s : State) : Host.Outcome State Fault Refusal :=
  request (payload13 7 tag page record) s

/-- CLEAR_PAGE: R69. -/
def execClearPage (tag page : Byte) (s : State) : Host.Outcome State Fault Refusal :=
  request (payload13 8 tag page) s

/-- MAP_PAGE: R71. -/
def execMapPage (tag position slot page : Byte) (s : State) : Host.Outcome State Fault Refusal :=
  request (payload13 9 tag position slot page) s

/-- SET_REEL: R73. -/
def execSetReel (tag position flags : Byte) (lastPicture : Word24) (s : State) :
    Host.Outcome State Fault Refusal :=
  request (payload13 10 tag position flags (hi24of lastPicture) (mid24of lastPicture) (lo24of lastPicture)) s

/-- READ_REEL: R74. -/
def execReadReel (tag position : Byte) (s : State) : Host.Outcome State Fault Refusal :=
  request (payload13 11 tag position) s

/-- SET_POSITION: R75. -/
def execSetPosition (tag position : Byte) (value : Word24) (s : State) :
    Host.Outcome State Fault Refusal :=
  request (payload13 12 tag position (hi24of value) (mid24of value) (lo24of value)) s

/-- RESTART_CUES: R77. -/
def execRestartCues (tag position : Byte) (s : State) : Host.Outcome State Fault Refusal :=
  request (payload13 13 tag position) s

/-- SET_SCREEN: R136. -/
def execSetScreen (tag kind onAir next idle faulted : Byte) (s : State) :
    Host.Outcome State Fault Refusal :=
  request (payload13 14 tag kind onAir next idle faulted) s

/-- READ_SCREEN: R137. -/
def execReadScreen (tag kind : Byte) (s : State) : Host.Outcome State Fault Refusal :=
  request (payload13 15 tag kind) s

/-- SET_RULE: R147. -/
def execSetRule (tag rule : Byte) (x : Vector Byte 5) (s : State) :
    Host.Outcome State Fault Refusal :=
  request (payload13 16 tag rule x[0] x[1] x[2] x[3] x[4]) s

/-- READ_RULE: R148. -/
def execReadRule (tag rule : Byte) (s : State) : Host.Outcome State Fault Refusal :=
  request (payload13 17 tag rule) s

/-- TAKE_ALARM: R155. -/
def execTakeAlarm (tag : Byte) (s : State) : Host.Outcome State Fault Refusal :=
  request (payload13 18 tag) s

/-- RELEASE_ALARM: R156. -/
def execReleaseAlarm (tag : Byte) (s : State) : Host.Outcome State Fault Refusal :=
  request (payload13 19 tag) s

/-- SET_ALARM_ENABLES: R152. -/
def execSetAlarmEnables (tag mode : Byte) (mask : BitVec 16) (s : State) :
    Host.Outcome State Fault Refusal :=
  request (payload13 20 tag mode (hi16 mask) (lo16 mask)) s

/-- READ_ALARMS: R157. -/
def execReadAlarms (tag group position : Byte) (s : State) : Host.Outcome State Fault Refusal :=
  request (payload13 21 tag group position) s

/-- SET_PARAM: R166. -/
def execSetParam (tag code : Byte) (value : BitVec 16) (s : State) :
    Host.Outcome State Fault Refusal :=
  request (payload13 22 tag code (hi16 value) (lo16 value)) s

/-- READ_PARAM: R168. -/
def execReadParam (tag code : Byte) (s : State) : Host.Outcome State Fault Refusal :=
  request (payload13 23 tag code) s

/-- RESET_PART: R169. -/
def execResetPart (tag : Byte) (s : State) : Host.Outcome State Fault Refusal :=
  request (payload13 24 tag) s

end Sys2Proof.Machine
end

