-- ==== Sys2Proof/Machine/Dispatch.lean ====
section
/-! DEFINITION. The meaning of each command, one arm per row of the opcode table. -/

namespace Sys2Proof.Machine

def exec (i : Instr) (s : State) : Host.Outcome State Fault Refusal :=
  match i with
  | .invalidCell leg cell => Sys2Proof.Machine.execInvalidCell leg cell s
  | .outboundHead station payload => Sys2Proof.Machine.execOutboundHead station payload s
  | .outboundOrder station payload => Sys2Proof.Machine.execOutboundOrder station payload s
  | .outboundVoid station payload => Sys2Proof.Machine.execOutboundVoid station payload s
  | .outboundPassthrough kind station payload => Sys2Proof.Machine.execOutboundPassthrough kind station payload s
  | .returnPassthrough kind station payload => Sys2Proof.Machine.execReturnPassthrough kind station payload s
  | .returnState station payload => Sys2Proof.Machine.execReturnState station payload s
  | .returnMux station payload => Sys2Proof.Machine.execReturnMux station payload s
  | .returnVoid station payload => Sys2Proof.Machine.execReturnVoid station payload s
  | .sweepEnd station payload => Sys2Proof.Machine.execSweepEnd station payload s
  | .missCountSilent position => Sys2Proof.Machine.execMissCountSilent position s
  | .runupExpiry position => Sys2Proof.Machine.execRunupExpiry position s
  | .stopExpiry position => Sys2Proof.Machine.execStopExpiry position s
  | .stallFlag position => Sys2Proof.Machine.execStallFlag position s
  | .stallBreak position => Sys2Proof.Machine.execStallBreak position s
  | .markRecognised position => Sys2Proof.Machine.execMarkRecognised position s
  | .settleExpiry position => Sys2Proof.Machine.execSettleExpiry position s
  | .strikeExpiry position => Sys2Proof.Machine.execStrikeExpiry position s
  | .staggerGapExpiry => Sys2Proof.Machine.execStaggerGapExpiry s
  | .strikeGrant => Sys2Proof.Machine.execStrikeGrant s
  | .dwellExpiry position => Sys2Proof.Machine.execDwellExpiry position s
  | .holdExpiry chain => Sys2Proof.Machine.execHoldExpiry chain s
  | .switchExpiry chain => Sys2Proof.Machine.execSwitchExpiry chain s
  | .ruleFire position signals => Sys2Proof.Machine.execRuleFire position signals s
  | .silenceTimerExpiry => Sys2Proof.Machine.execSilenceTimerExpiry s
  | .resetAssert => Sys2Proof.Machine.execResetAssert s
  | .resetRelease straps => Sys2Proof.Machine.execResetRelease straps s
  | .powerOn straps => Sys2Proof.Machine.execPowerOn straps s
  | .outboundManage station payload => Sys2Proof.Machine.execOutboundManage station payload s
  | .unknownRequest code tag parameters => Sys2Proof.Machine.execUnknownRequest code tag parameters s
  | .definePosition tag position station gauge rate => Sys2Proof.Machine.execDefinePosition tag position station gauge rate s
  | .readPosition tag position view => Sys2Proof.Machine.execReadPosition tag position view s
  | .defineChain tag chain station port0 port1 caption => Sys2Proof.Machine.execDefineChain tag chain station port0 port1 caption s
  | .setChainMode tag chain mode holdLimit switchLimit runoutGuard => Sys2Proof.Machine.execSetChainMode tag chain mode holdLimit switchLimit runoutGuard s
  | .readChain tag chain => Sys2Proof.Machine.execReadChain tag chain s
  | .loadCue tag pageRecord record => Sys2Proof.Machine.execLoadCue tag pageRecord record s
  | .readCue tag page record => Sys2Proof.Machine.execReadCue tag page record s
  | .clearPage tag page => Sys2Proof.Machine.execClearPage tag page s
  | .mapPage tag position slot page => Sys2Proof.Machine.execMapPage tag position slot page s
  | .setReel tag position flags lastPicture => Sys2Proof.Machine.execSetReel tag position flags lastPicture s
  | .readReel tag position => Sys2Proof.Machine.execReadReel tag position s
  | .setPosition tag position value => Sys2Proof.Machine.execSetPosition tag position value s
  | .restartCues tag position => Sys2Proof.Machine.execRestartCues tag position s
  | .setScreen tag kind onAir next idle faulted => Sys2Proof.Machine.execSetScreen tag kind onAir next idle faulted s
  | .readScreen tag kind => Sys2Proof.Machine.execReadScreen tag kind s
  | .setRule tag rule record => Sys2Proof.Machine.execSetRule tag rule record s
  | .readRule tag rule => Sys2Proof.Machine.execReadRule tag rule s
  | .takeAlarm tag => Sys2Proof.Machine.execTakeAlarm tag s
  | .releaseAlarm tag => Sys2Proof.Machine.execReleaseAlarm tag s
  | .setAlarmEnables tag mode mask => Sys2Proof.Machine.execSetAlarmEnables tag mode mask s
  | .readAlarms tag group position => Sys2Proof.Machine.execReadAlarms tag group position s
  | .setParam tag code value => Sys2Proof.Machine.execSetParam tag code value s
  | .readParam tag code => Sys2Proof.Machine.execReadParam tag code s
  | .resetPart tag => Sys2Proof.Machine.execResetPart tag s
  | .cellInSearchingOrLost leg cell => Sys2Proof.Machine.execCellInSearchingOrLost leg cell s
  | .lossOfSupply => Sys2Proof.Machine.execLossOfSupply s

end Sys2Proof.Machine
end

