-- ==== Sys2Proof/Safety.lean ====
section
/-! DEFINITION. What counts as a sound state of the part, in the terms the claims use: the bounds and the
one-entry rules its spec states. Each is decidable on plain data. -/

namespace Sys2Proof.Machine

/-- Supply present, RESET released, monitor LOCKED. -/
abbrev State.acting (s : State) : Prop := s.port.acting = true

/-- No hand-off waits between the blocks. That every step keeps it so is tested on random runs and not proved
(log 2). -/
abbrev State.quiet (s : State) : Prop := s.run.handoffs = []

/-- R160: the contact follows its conditions. -/
abbrev State.contactRight (s : State) : Prop := s.port.contact = contactAsserted s.port s.run

/-- R132: no two orders of one family for one station. -/
abbrev OrdersSingle (q : List OrderEntry) : Prop :=
  q.Pairwise (fun x y => x.holds y.station y.order.family = false)

/-- R158: never more than 16 notices. -/
abbrev NoticesBounded (r : Run) : Prop := r.notices.length ≤ 16

/-- R143, R150: a RULE slot that is pending or under service holds its captured rule. -/
abbrev RuleCaptured (r : Run) : Prop :=
  ∀ k : Fin 82, (classOf k).val = 13 → ((r.slots.get k).pending || (r.slots.get k).underService) = true →
    (r.slots.get k).rule.isSome = true

/-- R155: the stack holds the slots under service, each once, rising in rank to the top. -/
abbrev StackSound (r : Run) : Prop :=
  r.stack.Nodup ∧ (∀ k : Fin 82, (r.slots.get k).underService = decide (k ∈ r.stack))
    ∧ r.stack.Pairwise (fun a b => ranksAbove r a b = true) ∧ RuleCaptured r

/-- R72: a page is in at most one slot. -/
abbrev PagesSingle (su : Setup) : Prop :=
  ∀ (p q : Fin 8) (j k : Fin 4) (g : Fin 32), (su.reels.get p).slots.get j = some g →
    (su.reels.get q).slots.get k = some g → p = q ∧ j = k

def positionStation (su : Setup) (p : Fin 8) : Option Station := (su.positions.get p).map PosDef.station
def chainStation (su : Setup) (c : Fin 4) : Option Station := (su.chains.get c).map ChainDef.station

/-- R2: a station belongs to at most one position or chain, or to the part. -/
abbrev StationsSingle (own : Station) (su : Setup) : Prop :=
  (∀ p q : Fin 8, (positionStation su p).isSome = true → positionStation su p = positionStation su q → p = q)
    ∧ (∀ c d : Fin 4, (chainStation su c).isSome = true → chainStation su c = chainStation su d → c = d)
    ∧ (∀ (p : Fin 8) (c : Fin 4), (positionStation su p).isSome = true →
        positionStation su p ≠ chainStation su c)
    ∧ (∀ p : Fin 8, positionStation su p ≠ some own) ∧ (∀ c : Fin 4, chainStation su c ≠ some own)

/-- R123: a position is at no more than one port. -/
abbrev PortsSingle (su : Setup) : Prop :=
  ∀ (c d : Fin 4) (p : Fin 8),
    (portPosition su c .zero = some p → portPosition su d .zero = some p → c = d)
      ∧ (portPosition su c .one = some p → portPosition su d .one = some p → c = d)
      ∧ (portPosition su c .zero = some p → portPosition su d .one ≠ some p)

/-- 10, section 10.3; R124; R147: every limit within its range, no match bit outside the mask. -/
abbrev SettingsInRange (su : Setup) : Prop :=
  (su.params.staggerGap ≤ 50 ∧ (10 ≤ su.params.strikeLimit ∧ su.params.strikeLimit ≤ 250)
    ∧ su.params.lampSettle ≤ 50 ∧ (10 ≤ su.params.runupLimit ∧ su.params.runupLimit ≤ 250)
    ∧ (25 ≤ su.params.stopLimit ∧ su.params.stopLimit ≤ 500)
    ∧ (10 ≤ su.params.dwellLimit ∧ su.params.dwellLimit ≤ 500)
    ∧ (3 ≤ su.params.motionWindow ∧ su.params.motionWindow ≤ 8)
    ∧ (2 ≤ su.params.markLength ∧ su.params.markLength ≤ 6)
    ∧ (2 ≤ su.params.markGap ∧ su.params.markGap ≤ 12))
  ∧ (∀ c : Fin 4, let m := su.modes.get c
      5 ≤ m.holdLimit ∧ m.holdLimit ≤ 250 ∧ 2 ≤ m.switchLimit ∧ m.switchLimit ≤ 10 ∧ m.runoutGuard ≤ 255)
  ∧ (∀ i : Fin 16, let x := su.rules.get i
      1 ≤ x.persistence ∧ x.persistence ≤ 8 ∧ x.values &&& x.mask = x.values
        ∧ (x.active = true → x.mask ≠ 0))

/-- 00, Film position; R27; R41: the position value in its range, the miss count at most 2. -/
abbrev MotionRec.sound (m : MotionRec) : Prop :=
  -32768 ≤ m.value ∧ m.value ≤ 262143 ∧ m.miss ≤ 2

/-- R98, R99: the runs and the mark count within their bounds. -/
abbrev ScanRec.sound (x : ScanRec) : Prop :=
  x.marks ≤ 4 ∧ x.dotRun ≤ 7 ∧ x.clearRun ≤ 15 ∧ x.precedingClear ≤ 15

/-- Every position's counts within their bounds. -/
abbrev CountsInRange (r : Run) : Prop :=
  ∀ p : Fin 8, (r.motions.get p).sound ∧ (r.scans.get p).sound

/-- R83: every cursor lies between 0 and the length of its reel's cue list. -/
abbrev CursorsInRange (su : Setup) (r : Run) : Prop :=
  ∀ p : Fin 8, (r.scans.get p).cursor ≤ listLength su p

/-- R53, R54, R60: no position twice in the strike queue, which so holds at most 8 entries; an entry for p exactly
while lamp p is QUEUED; the gate STRIKING p exactly while lamp p is STRIKING; PRIMED and READY published of a
lamp that is LIT alone. -/
abbrev StrikesSound (r : Run) : Prop :=
  (r.strikeQueue.map StrikeEntry.position).Nodup
    ∧ ∀ p : Fin 8, (p ∈ r.strikeQueue.map StrikeEntry.position ↔ (r.lamps.get p).lamp = .queued)
      ∧ (r.gate = .striking p ↔ (r.lamps.get p).lamp = .striking)
      ∧ ((r.lamps.get p).primed = true ∨ (r.lamps.get p).ready = true → (r.lamps.get p).lamp = .lit)

/-! ### What a command meets, in the terms of the claims -/

/-- R84, R97 to R99: one more report with DOT is a mark, and it goes to b, the LOADED record at the cursor of a
scanned reel, whose arm point the film has reached and whose trigger is not yet met. -/
abbrev MarkComes (s : State) (p : Fin 8) (b : Cue) : Prop :=
  let x := s.run.scans.get p
  scanned s.setup s.run p = true ∧ cursorRecord s.setup s.run p = some (some b)
    ∧ b.point ≤ (s.run.motions.get p).value ∧ x.hold = .none ∧ x.met = none
    ∧ 1 ≤ x.dotRun ∧ x.dotRun + 1 = s.setup.params.markLength ∧ s.setup.params.markLength ≤ 6
    ∧ s.setup.params.markGap ≤ x.precedingClear

/-- That mark brings b, a MARK record, to its ordinal; b is the last record of its list, and a notice has room. -/
abbrev MarkFires (s : State) (p : Fin 8) (b : Cue) : Prop :=
  let x := s.run.scans.get p
  MarkComes s p b ∧ (∃ backstop, b.trigger = .mark (x.marks + 1) backstop) ∧ x.marks < 4
    ∧ x.cursor + 1 = listLength s.setup p ∧ s.run.notices.length < 16

/-- R83, R84: an evaluation event brings p's reel nothing: it is not scanned, its cursor stands at the end of the
list, or the record at its cursor waits unheld for a trigger not met. -/
abbrev NothingToTake (s : State) (p : Fin 8) : Prop :=
  let x := s.run.scans.get p
  scanned s.setup s.run p = false ∨ cursorRecord s.setup s.run p = none
    ∨ ∃ b, cursorRecord s.setup s.run p = some (some b) ∧ x.hold = .none ∧ x.met = none
      ∧ triggerMet b (s.run.motions.get p).value x.marks = none

/-- R103: every position's role, and whether it is on air, stand as last worked. -/
abbrev RolesWorked (s : State) : Prop :=
  ∀ p : Fin 8, s.run.roles.get p = roleOf s.setup s.run p ∧ s.run.onAir.get p = isOnAir s.setup s.run p

/-- R102: q is NEXT beside p, the on-air position: p's partner, neither BROKEN nor SILENT, no lamp fault. -/
abbrev IsNext (s : State) (p q : Fin 8) : Prop :=
  partnerOf s.setup p = some q ∧ (s.run.motions.get q).motion ≠ .broken
    ∧ (s.run.motions.get q).silent = false ∧ (s.run.lamps.get q).fault = false

/-- R117: the switch that answers an on-air loss of p, at port z, in SINGLE or DOUBLE with Fallback on: to a READY
NEXT's port with kind CHANGE, else to the fallback input with kind FALLBACK. -/
abbrev LossAnswer (s : State) (c : Fin 4) (z : Port) (p : Fin 8) (i : Input) (k : SwitchKind) : Prop :=
  (k = .change ∧ i = z.other.input ∧ ∃ q, IsNext s p q ∧ (s.run.lamps.get q).ready = true)
    ∨ (k = .fallback ∧ i = fallbackInput s.setup c ∧ ∀ q, IsNext s p q → (s.run.lamps.get q).ready = false)

/-- R118: while p is on air a loss stands: p is FAULTED, or its motion is neither RUNUP nor LOCKED. -/
abbrev LossStands (s : State) (p : Fin 8) : Prop :=
  ((s.run.motions.get p).motion ≠ .runup ∧ (s.run.motions.get p).motion ≠ .locked)
    ∨ (s.run.motions.get p).silent = true ∨ (s.run.lamps.get p).fault = true

/-- Nothing falls due at the next sweep end: no second miss, no timer or counter that one more sweep brings to its
limit (R35, R36, R41, R52, R55, R56, R59, R108, R114). -/
abbrev NothingDue (s : State) : Prop :=
  let w := s.setup.params
  (∀ p : Fin 8,
      let m := s.run.motions.get p
      let l := s.run.lamps.get p
      ((s.setup.positions.get p).isSome = true →
        (if s.port.reportedPositions.get p then m.miss else m.miss + 1) < 2 ∨ m.silent = true)
      ∧ (∀ n, m.motion = .runup → m.runup = some n → n + 1 < w.runupLimit)
      ∧ (∀ n, m.motion = .stopping → m.stop = .running n → n + 1 < w.stopLimit)
      ∧ (∀ n, l.lamp = .striking → l.strikeTimer = some n → n + 1 < w.strikeLimit)
      ∧ (∀ n, l.lamp = .settling → l.settle = some n → n + 1 < w.lampSettle)
      ∧ (dwelling s.run p = true → (s.setup.positions.get p).isSome = true → l.dwell + 1 < w.dwellLimit))
    ∧ 0 < w.dwellLimit
    ∧ (∀ n, s.run.gate = .gap n → n + 1 < w.staggerGap)
    ∧ ∀ c : Fin 4,
        let x := s.run.chains.get c
        (x.state = .holding → x.holdTimer ≠ .expired)
        ∧ (∀ n, x.state = .holding → x.holdTimer = .running n → n + 1 < (s.setup.modes.get c).holdLimit)
        ∧ (∀ n, x.state = .switching → x.switchTimer = some n → n + 1 < (s.setup.modes.get c).switchLimit)

/-! ### What a command leaves, in the terms of the claims -/

/-- A chain's record in SWITCHING, its SELECT QUEUED and its switch timer at 0 (R111). -/
abbrev ChainRec.switched (x : ChainRec) (i : Input) (k : SwitchKind) (holdSweeps : Nat) : ChainRec :=
  { x with
    target := some (i, k), fromInput := x.observed, select := .queued, switchTimer := some 0
    holdSweeps := holdSweeps, state := .switching }

/-- A chain's record with no switch under way (R113 to R115). -/
abbrev ChainRec.unswitched (x : ChainRec) (observed : Option Input) (state : ChainState) : ChainRec :=
  { x with
    observed := observed, state := state, target := none, fromInput := none, select := .none
    switchTimer := none, holdSweeps := 0 }

/-- R104: the state that the observed selection i of chain c derives. -/
abbrev StateFrom (s : State) (c : Fin 4) (i : Input) : ChainState :=
  match i.port with
  | none => .dark
  | some z =>
    if ∃ q : Fin 8, portPosition s.setup c z.other = some q ∧ (s.setup.positions.get q).isSome = true
        ∧ ((s.run.motions.get q).motion = .runup ∨ (s.run.motions.get q).motion = .locked)
      then .double else .single

/-- A chain's record with no hold, as R109 ends it: hold sweeps has the hold timer's count, or the hold limit where
the timer had expired. -/
abbrev ChainRec.unheld (x : ChainRec) (limit : Nat) (state : ChainState) : ChainRec :=
  { x with
    hold := none, holdTimer := .idle, state := state
    holdSweeps := match x.holdTimer with
      | .running n => n
      | .expired => limit
      | .idle => 0 }

/-- R119, R120: the runout of chain c's port positions has been evaluated with nothing to raise and nothing to stop:
the runout raised and tail stopped flags of a port position not past runout are clear, and every other flag stays. -/
abbrev RunoutWorked (s t : State) (c : Fin 4) : Prop :=
  (∀ a z, portPosition s.setup c z = some a → pastRunout s.setup s.run c a = false →
      t.run.runoutRaised.get a = false ∧ t.run.tailStopped.get a = false)
    ∧ ∀ a, (∀ z, portPosition s.setup c z = some a → pastRunout s.setup s.run c a = true) →
      t.run.runoutRaised.get a = s.run.runoutRaised.get a ∧ t.run.tailStopped.get a = s.run.tailStopped.get a

/-- A reel's scanning record after the record at its cursor has completed (R83, R99). -/
abbrev ScanRec.passed (x : ScanRec) : ScanRec :=
  { x with cursor := x.cursor + 1, marks := 0, hold := .none, partnerRan := false, met := none }

/-- R68, R96: a reel's scanning record after the record at its cursor has been rewritten; the cursor stays. -/
abbrev ScanRec.rewritten (x : ScanRec) : ScanRec :=
  { x with marks := 0, hold := .none, partnerRan := false, met := none }

/-- The state with a cell on a leg's output, and nothing else changed. -/
def State.shows (s : State) (l : Leg) (c : Cell) : State :=
  match l with
  | .outbound => { s with port := { s.port with loopOut := some c } }
  | .ret => { s with port := { s.port with loopRet := some c } }

/-- R3, R164: the REPLY from the part's own station: the code with the result above it, the tag, the
current sweep number, the data octets. -/
def State.replyCell (s : State) (code : Nat) (tag : Byte) (result : Nat) (d : Vector Byte 10) : Cell :=
  Cell.make .reply (s.port.own.setWidth 8)
    #v[BitVec.ofNat 8 (code + 32 * result), tag, s.port.sweep, d[0], d[1], d[2], d[3], d[4], d[5], d[6],
       d[7], d[8], d[9]]

/-- The state with that REPLY on LOOP OUT OUT. -/
def State.replies (s : State) (code : Nat) (tag : Byte) (result : Nat) (d : Vector Byte 10) : State :=
  s.shows .outbound (s.replyCell code tag result d)

/-- The leg and the cell of a row that is a cell. -/
def arrives : Instr → Option (Leg × Cell)
  | .invalidCell l c => some (l, c)
  | .cellInSearchingOrLost l c => some (l, c)
  | .outboundHead st m => some (.outbound, Cell.make .head st m)
  | .outboundManage st m => some (.outbound, Cell.make .manage st m)
  | .outboundOrder st m => some (.outbound, Cell.make .order st m)
  | .outboundVoid st m => some (.outbound, Cell.make .void st m)
  | .outboundPassthrough k st m => some (.outbound, Cell.make k.kind st m)
  | .returnPassthrough k st m => some (.ret, Cell.make k.kind st m)
  | .returnState st m => some (.ret, Cell.make .state st m)
  | .returnMux st m => some (.ret, Cell.make .mux st m)
  | .returnVoid st m => some (.ret, Cell.make .void st m)
  | .sweepEnd st m => some (.ret, Cell.make .tail st m)
  | _ => none

/-- The rows that reset the part or lose its state. -/
def resetsPart : Instr → Bool
  | .resetRelease _ => true
  | .powerOn _ => true
  | .lossOfSupply => true
  | _ => false

/-- The rows that may write set-up: the requests that define, set, load, clear and map, and the MANAGE
cell that carries them. -/
def writesSetup : Instr → Bool
  | .outboundManage .. | .definePosition .. | .defineChain .. | .setChainMode .. | .loadCue ..
  | .clearPage .. | .mapPage .. | .setReel .. | .setScreen .. | .setRule .. | .setAlarmEnables ..
  | .setParam .. => true
  | _ => false

/-- The part's own doing at an event: the set-up, the queue and the Loop Port stay, but for the contact. -/
abbrev OnlyBlocksActed (s t : State) : Prop :=
  t.setup = s.setup ∧ t.pending = s.pending ∧ t.port = { s.port with contact := t.port.contact }
    ∧ t.contactRight

/-- R151: the slot has been raised with this position value. Where the class is on and the slot was not
pending it is pending, not noticed and holds the sweep and the value; where it was pending its repeat flag
is set and it keeps what it held; where the class is off it stays as it was. -/
abbrev RaisedIn (s t : State) (k : Fin 82) (v : Option Int) : Prop :=
  let x := s.run.slots.get k
  let y := t.run.slots.get k
  if s.setup.enables.get (classOf k) = true then
    y.pending = true
      ∧ (x.pending = false → y.noticed = false ∧ y.sweep = some s.port.sweep ∧ y.value = v)
      ∧ (x.pending = true → y.repeated = true ∧ y.noticed = x.noticed ∧ y.sweep = x.sweep ∧ y.value = x.value)
      ∧ y.underService = x.underService
  else y = x

/-- The under-service stack and the under-service flags stay (only TAKE and RELEASE ALARM and a reset
change them). -/
abbrev LadderKept (s t : State) : Prop :=
  t.run.stack = s.run.stack
    ∧ ∀ k : Fin 82, (t.run.slots.get k).underService = (s.run.slots.get k).underService

end Sys2Proof.Machine
end

