-- ==== Sys2Proof/Certificates/Slice0/Obligations.lean ====
section
/-! DEFINITION. The statements for the provers, made from the numbered rules of spec/. A statement on a
command gives the next state the rules give; `s.contactRight` (log 26) says that the contact pin agrees
with its conditions in s, which every step keeps (ContactKept) and reset has (ResetValues). `s.quiet` says
that no hand-off waits between the blocks: reset has it (ResetValues), and that every step keeps it is tested
on random runs and NOT PROVED (log 2), so a statement with that premise speaks of the states that meet it.
Where a statement says `t.run = drain s.env r` it gives in r what the commanded block itself leaves; the
hand-offs that wait in r are then taken, in an order that is free (log 1). -/

open Sys2Proof Sys2Proof.Machine

/-! ### The machine -/

/-- The command at the front of the queue is the one a step runs, on the state with the queue's rest; every
command, in every state, completes and leaves the rest of the queue (95: "the part's steps, each whole and
indivisible"; the queue is the model's, log 27). -/
def Obligations.StepRunsFrontCommand : Prop :=
  ∀ (c : Instr) (s : State), step { s with pending := c :: s.pending } = exec c s
    ∧ ∃ t, exec c s = .next t ∧ t.pending = s.pending

/-- From R16: in a LOCKED part the silence timer's expiry, as the row or as the cycle of CLK that a step on an
empty queue is (log 6, log 7), makes the monitor LOST, stops the timer, asserts the contact whether or not the
LOOP class is on, and raises slot 0; nothing else changes. A cycle before the 100,000th only counts; a part
that is not LOCKED counts nothing. -/
def Obligations.SilenceLosesTheLoop : Prop :=
  ∀ s : State,
    (s.acting → ∃ t, exec .silenceTimerExpiry s = .next t
      ∧ t.port = { s.port with monitor := .lost, silence := none, contact := true }
      ∧ t.setup = s.setup ∧ t.pending = s.pending ∧ t.run = { s.run with slots := t.run.slots }
      ∧ RaisedIn s t 0 none ∧ ∀ k : Fin 82, k ≠ 0 → t.run.slots.get k = s.run.slots.get k)
    ∧ (s.pending = [] →
        (s.port.acting = false → step s = .next s)
        ∧ (∀ n, s.acting → s.port.silence = some n → n + 1 < 100000 →
            step s = .next { s with port := { s.port with silence := some (n + 1) } })
        ∧ (∀ n, s.acting → s.port.silence = some n → 100000 ≤ n + 1 →
            step s = exec .silenceTimerExpiry s))

/-- R18, R20, R46, R79, R100, R138, R149, R162, R171: what stands right after a full reset; and that state is
sound in every sense the invariants below speak of. -/
def Obligations.ResetValues : Prop :=
  State.reset.port.monitor = .searching ∧ State.reset.port.silence = none ∧ State.reset.port.sweep = 0
    ∧ (∀ p : Fin 8, State.reset.port.reportedPositions.get p = false
        ∧ State.reset.setup.positions.get p = none
        ∧ (State.reset.run.motions.get p).motion = .unreported
        ∧ (State.reset.run.motions.get p).lastCount = none
        ∧ (State.reset.run.motions.get p).value = 0
        ∧ (State.reset.run.motions.get p).referenced = false
        ∧ (State.reset.run.lamps.get p).lamp = .unreported
        ∧ (State.reset.run.lamps.get p).dowser = .unknown
        ∧ (State.reset.run.scans.get p).cursor = 0
        ∧ (State.reset.setup.reels.get p).lastPicture = none)
    ∧ (∀ c : Fin 4, State.reset.setup.chains.get c = none
        ∧ (State.reset.run.chains.get c).state = .unknown
        ∧ (State.reset.setup.modes.get c).armed = false
        ∧ (State.reset.setup.modes.get c).fallback = true
        ∧ (State.reset.setup.modes.get c).holdLimit = 25
        ∧ (State.reset.setup.modes.get c).switchLimit = 3
        ∧ (State.reset.setup.modes.get c).runoutGuard = 24)
    ∧ (∀ g : Fin 32, ∀ i : Fin 8, (State.reset.setup.pages.get g).get i = none)
    ∧ (∀ i : Fin 16, (State.reset.setup.rules.get i).active = false)
    ∧ (∀ k : Fin 82, (State.reset.run.slots.get k).pending = false
        ∧ (State.reset.run.slots.get k).underService = false)
    ∧ (∀ n : Fin 14, State.reset.setup.enables.get n = true)
    ∧ State.reset.setup.screen = #v[
        #v[.pass, .pass, .pass, .force], #v[.force, .pass, .pass, .pass], #v[.pass, .pass, .pass, .force],
        #v[.force, .pass, .pass, .pass], #v[.pass, .pass, .pass, .pass], #v[.force, .pass, .pass, .pass],
        #v[.pass, .pass, .pass, .force]]
    ∧ State.reset.run.gate = .free ∧ State.reset.run.strikeQueue = [] ∧ State.reset.run.orders = []
    ∧ State.reset.run.stack = [] ∧ State.reset.run.notices = [] ∧ State.reset.port.contact = false
    ∧ State.reset.setup.params = {
        staggerGap := 10, strikeLimit := 100, lampSettle := 25, runupLimit := 75, stopLimit := 250
        dwellLimit := 100, motionWindow := 3, markLength := 2, markGap := 4 }
    ∧ State.reset.pending = []
    ∧ State.reset.contactRight ∧ State.reset.quiet ∧ OrdersSingle State.reset.run.orders
    ∧ NoticesBounded State.reset.run ∧ StackSound State.reset.run ∧ PagesSingle State.reset.setup
    ∧ StationsSingle State.reset.port.own State.reset.setup ∧ PortsSingle State.reset.setup
    ∧ SettingsInRange State.reset.setup ∧ CountsInRange State.reset.run
    ∧ CursorsInRange State.reset.setup State.reset.run ∧ StrikesSound State.reset.run

/-! ### Invariants -/

/-- R160: the contact is asserted exactly while a MAJOR slot is pending or under service or the monitor is
LOST (and never while RESET is held or the supply is lost, R4): every step keeps it so. -/
def Obligations.ContactKept : Prop :=
  ∀ s t : State, s.contactRight → step s = .next t → t.contactRight

/-- R132, R158: the order queue never holds two orders of one family for one station, and the notice queue
never more than 16 notices. -/
def Obligations.QueuesKept : Prop :=
  ∀ s t : State, step s = .next t →
    (OrdersSingle s.run.orders → OrdersSingle t.run.orders)
    ∧ (NoticesBounded s.run → NoticesBounded t.run)

/-- R151, R155, R156: the stack holds exactly the slots under service, each once, rising in rank to the
top. -/
def Obligations.StackKept : Prop :=
  ∀ s t : State, StackSound s.run → step s = .next t → StackSound t.run

/-- R2, R22, R71, R72, R123: a page is in one slot at most, a station is one thing's at most, a position
is at one port at most. -/
def Obligations.DefinitionsKept : Prop :=
  ∀ s t : State, PagesSingle s.setup → StationsSingle s.port.own s.setup → PortsSingle s.setup →
    step s = .next t →
    PagesSingle t.setup ∧ StationsSingle t.port.own t.setup ∧ PortsSingle t.setup

/-- R124, R147, R166 and the table of 10.3: every setting stays within its range. -/
def Obligations.SettingsKept : Prop :=
  ∀ s t : State, SettingsInRange s.setup → step s = .next t → SettingsInRange t.setup

/-- R27, R41, R75, R98, R99: position values, miss counts, dot runs and mark counts stay in their ranges. R83: every
cursor stays between 0 and the length of its reel's cue list. R53, R54, R60: the strike queue holds a position
once at most, and so at most 8 entries, an entry exactly for each lamp QUEUED; the gate is STRIKING exactly
the position whose lamp is STRIKING; PRIMED and READY stand published of a LIT lamp alone. -/
def Obligations.CountsKept : Prop :=
  ∀ s t : State, step s = .next t →
    (CountsInRange s.run → CountsInRange t.run)
    ∧ (CursorsInRange s.setup s.run → CursorsInRange t.setup t.run)
    ∧ (StrikesSound s.run → StrikesSound t.run ∧ t.run.strikeQueue.length ≤ 8)

/-- From 10 and R18: nothing but the desk's requests and a reset changes what the desk has set up, and nothing
but a reset or a loss of supply the own station number. Said of a row as the table lists it (Instr.wellFormed),
CELL_IN_SEARCHING_OR_LOST where the monitor is not LOCKED. -/
def Obligations.SetupHolds : Prop :=
  ∀ (i : Instr) (s t : State), i.wellFormed = true →
    (∀ l c, i = .cellInSearchingOrLost l c → s.port.monitor ≠ .locked) →
    exec i s = .next t → resetsPart i = false →
    t.port.own = s.port.own ∧ t.port.straps = s.port.straps
      ∧ (writesSetup i = false → t.setup = s.setup)

/-- R155, R156: only TAKE ALARM, RELEASE ALARM (as rows or inside a MANAGE cell) and a reset change what is
under service. Said of a row as the table lists it (Instr.wellFormed), CELL_IN_SEARCHING_OR_LOST where the
monitor is not LOCKED. -/
def Obligations.LadderChangesByRequestOnly : Prop :=
  ∀ (i : Instr) (s t : State), i.wellFormed = true →
    (∀ l c, i = .cellInSearchingOrLost l c → s.port.monitor ≠ .locked) →
    exec i s = .next t → resetsPart i = false →
    (∀ tag, i ≠ .takeAlarm tag ∧ i ≠ .releaseAlarm tag ∧ i ≠ .resetPart tag) →
    (∀ st m, i ≠ .outboundManage st m) → LadderKept s t

/-! ### Cells, RESET and the supply -/

/-- From R1, R4, R15: what is forwarded unchanged on its leg with nothing else changed: an invalid cell always;
every cell while RESET is held, the contact then open; and in SEARCHING and LOST every cell but a valid
outbound HEAD, the row CELL_IN_SEARCHING_OR_LOST among them. -/
def Obligations.CellsForwardedWhole : Prop :=
  ∀ (s : State), s.port.powered = true → s.contactRight →
    (∀ (l : Leg) (c : Cell), c.valid = false → exec (.invalidCell l c) s = .next (s.shows l c))
    ∧ (∀ (l : Leg) (c : Cell), s.port.monitor ≠ .locked → c.isOutboundHead l = false →
        exec (.cellInSearchingOrLost l c) s = .next (s.shows l c))
    ∧ ∀ (i : Instr) (l : Leg) (c : Cell), arrives i = some (l, c) →
        (s.port.resetHeld = true → exec i s = .next (s.shows l c) ∧ s.port.contact = false)
        ∧ (s.port.monitor ≠ .locked → c.isOutboundHead l = false → exec i s = .next (s.shows l c))

/-- R9: a TAIL, STATE, MUX, REPLY or NOTICE on the outbound leg is forwarded unchanged and not delivered;
an outbound TAIL is no sweep end. -/
def Obligations.OutboundPassthroughForwarded : Prop :=
  ∀ (k : OutboundPassKind) (st : Byte) (m : Payload) (s : State), s.port.powered = true → s.contactRight →
    exec (.outboundPassthrough k st m) s = .next (s.shows .outbound (Cell.make k.kind st m))

/-- R14: an ORDER, MANAGE, REPLY, NOTICE or HEAD on the return leg is forwarded unchanged and not
delivered. -/
def Obligations.ReturnPassthroughForwarded : Prop :=
  ∀ (k : ReturnPassKind) (st : Byte) (m : Payload) (s : State), s.port.powered = true → s.contactRight →
    exec (.returnPassthrough k st m) s = .next (s.shows .ret (Cell.make k.kind st m))

/-- From R2, R6, R10, R11, R126, R173: forwarded unchanged on its leg with nothing else changed, in a LOCKED part:
a MANAGE for another station; an ORDER whose kind does not suit its station; a STATE of no position or of one that has
reported since the last sweep end; a MUX of no chain, of one that has reported since then, or with an input of
4 or more. -/
def Obligations.NotForThePartForwarded : Prop :=
  ∀ (st : Byte) (m : Payload) (s : State), s.acting → s.contactRight →
    (st ≠ s.port.own.setWidth 8 →
      exec (.outboundManage st m) s = .next (s.shows .outbound (Cell.make .manage st m)))
    ∧ ((1 ≤ m[0].toNat ∧ m[0].toNat ≤ 6 →
          ∀ x p, stationOf st = some x → positionStation s.setup p ≠ some x) →
        (m[0] = 7 ∧ m[1].toNat ≤ 3 → ∀ x c, stationOf st = some x → chainStation s.setup c ≠ some x) →
      exec (.outboundOrder st m) s = .next (s.shows .outbound (Cell.make .order st m)))
    ∧ ((∀ x p, stationOf st = some x → positionAt s.setup x = some p →
          s.port.reportedPositions.get p = true) →
      exec (.returnState st m) s = .next (s.shows .ret (Cell.make .state st m)))
    ∧ ((∀ x c, stationOf st = some x → chainAt s.setup x = some c →
          s.port.reportedChains.get c = true ∨ 4 ≤ m[0].toNat) →
      exec (.returnMux st m) s = .next (s.shows .ret (Cell.make .mux st m)))

/-- R5, R17: a valid outbound HEAD sets the sweep number, restarts the silence timer, leaves the monitor
LOCKED and is forwarded. From SEARCHING or LOCKED nothing else changes. From LOST both reported sets are
emptied, every defined position with a last frame count has resync due, and nothing else changes but the
contact. -/
def Obligations.HeadLocksTheLoop : Prop :=
  ∀ (st : Byte) (m : Payload) (s : State), s.port.powered = true → s.port.resetHeld = false →
    s.contactRight →
    (s.port.monitor ≠ .lost → exec (.outboundHead st m) s =
      .next ({ s with port := { s.port with sweep := m[0], silence := some 0, monitor := .locked } }.shows
        .outbound (Cell.make .head st m)))
    ∧ (s.port.monitor = .lost → ∃ t, exec (.outboundHead st m) s = .next t
        ∧ t.port = { s.port with
            sweep := m[0], silence := some 0, monitor := .locked
            reportedPositions := Vector.replicate 8 false
            reportedChains := Vector.replicate 4 false
            loopOut := some (Cell.make .head st m), contact := t.port.contact }
        ∧ t.contactRight ∧ t.setup = s.setup ∧ t.pending = s.pending
        ∧ t.run = { s.run with motions := t.run.motions }
        ∧ ∀ p : Fin 8, t.run.motions.get p =
            if (s.setup.positions.get p).isSome = true ∧ (s.run.motions.get p).lastCount.isSome = true then
              { s.run.motions.get p with resyncDue := true }
            else s.run.motions.get p)

/-- From R18, R171: the release of RESET on a supplied part, and the end of power-on, leave every block at its
full reset values, with the straps read as the own station. That POWER_ON makes the full reset in every state, a
part already supplied or held included, and leaves RESET held where it is held, is the model's choice (log 9,
DESIGN CHOICE). So are these: the commands that wait stay (log 27), the lines keep the record of the cells that
last left (log 11), the free values' fields go on (log 1). -/
def Obligations.FullResetLeaves : Prop :=
  ∀ (w : BitVec 6) (s : State),
    let after := fun (held : Bool) => ({ State.reset with
      port := { State.reset.port with
        resetHeld := held, straps := w, own := w, loopOut := s.port.loopOut, loopRet := s.port.loopRet }
      run := { State.reset.run with schedule := s.run.schedule, choices := s.run.choices }
      pending := s.pending } : State)
    (s.port.powered = true → exec (.resetRelease w) s = .next (after false))
    ∧ exec (.powerOn w) s = .next (after s.port.resetHeld)

/-- From R4 and 10, section 10.5: RESET active opens the contact and changes nothing else; a loss of supply
opens the contact and loses every definition, setting and record. That the lost state, the monitor and the sweep
number among it, then shows its full reset values, and the own station the straps, is the model's choice (log 9,
DESIGN CHOICE). So are these: RESET stays held or released and the straps stay (log 9), the commands that wait stay
(log 27), the lines keep the record of the cells that last left (log 11), the free values' fields go on (log 1). -/
def Obligations.ResetAndSupplyOpenContact : Prop :=
  ∀ s : State,
    exec .resetAssert s = .next { s with port := { s.port with resetHeld := true, contact := false } }
    ∧ exec .lossOfSupply s = .next { State.reset with
        port := { State.reset.port with
          powered := false, resetHeld := s.port.resetHeld, straps := s.port.straps, own := s.port.straps
          loopOut := s.port.loopOut, loopRet := s.port.loopRet }
        run := { State.reset.run with schedule := s.run.schedule, choices := s.run.choices }
        pending := s.pending }

/-- R19, R169, R170: RESET PART answers DONE with data octets 0 and the sweep number, then restarts all
run-time state, keeps the set-up, the monitor, the silence timer, the sweep number and the own station, and
empties the reported sets; the contact is released. -/
def Obligations.ResetPartRestarts : Prop :=
  ∀ (tag : Byte) (s : State), s.acting →
    exec (.resetPart tag) s = .next
      { s with
        port := { s.port with
          reportedPositions := Vector.replicate 8 false
          reportedChains := Vector.replicate 4 false
          loopOut := some (s.replyCell 24 tag 0 (Vector.replicate 10 0)), contact := false }
        run := { State.reset.run with schedule := s.run.schedule, choices := s.run.choices } }

/-! ### Requests -/

/-- R3, R6, R163 to R165: every MANAGE cell addressed to a LOCKED part is answered in place by a valid REPLY
from the part's own station with the request code echoed (0 for an unknown one), the tag and the sweep
number; a result other than DONE changes nothing else. A request code of 0 or of 25 to 255, as the row
UNKNOWN_REQUEST, is answered BADREQ and changes nothing. -/
def Obligations.EveryRequestAnswered : Prop :=
  ∀ (m : Payload) (s : State), s.acting → s.contactRight →
    (∃ t c, exec (.outboundManage (s.port.own.setWidth 8) m) s = .next t ∧ t.port.loopOut = some c
      ∧ c.kind? = some .reply ∧ c.valid = true ∧ c.station = s.port.own.setWidth 8
      ∧ c.payload[0] &&& 31 = (if 1 ≤ m[0].toNat ∧ m[0].toNat ≤ 24 then m[0] else 0)
      ∧ c.payload[1] = m[1] ∧ c.payload[2] = s.port.sweep
      ∧ (c.payload[0] >>> 5 ≠ 0 → t = s.shows .outbound c))
    ∧ ∀ (code tag : Byte) (x : Vector Byte 11), code = 0 ∨ 25 ≤ code.toNat →
      exec (.unknownRequest code tag x) s = .next (s.replies 0 tag 1 (Vector.replicate 10 0))

/-- R168: READ PARAM of a code outside 1 to 9 is refused RANGE; otherwise the reply is DONE and carries the
code and the value as it stands. -/
def Obligations.ReadParamAnswers : Prop :=
  ∀ (tag code : Byte) (s : State), s.acting → s.contactRight →
    let p := s.setup.params
    (∀ x ∈ [(1, p.staggerGap), (2, p.strikeLimit), (3, p.lampSettle), (4, p.runupLimit),
        (5, p.stopLimit), (6, p.dwellLimit), (7, p.motionWindow), (8, p.markLength), (9, p.markGap)],
      code.toNat = x.1 → exec (.readParam tag code) s = .next (s.replies 23 tag 0
        #v[code, BitVec.ofNat 8 (x.2 / 256), BitVec.ofNat 8 x.2, 0, 0, 0, 0, 0, 0, 0]))
    ∧ (code.toNat < 1 ∨ 9 < code.toNat →
        exec (.readParam tag code) s = .next (s.replies 23 tag 2 (Vector.replicate 10 0)))

/-- R166 and the table of 10.3: SET PARAM within the range writes that parameter alone and answers DONE with
the code and the value; outside it, or for a code outside 1 to 9, RANGE and nothing changes. R136: SET SCREEN writes
the four verdicts of one order kind and nothing else; a kind outside 1 to 7 or another verdict code is refused
RANGE. -/
def Obligations.ParamsAndScreenWritten : Prop :=
  ∀ (tag : Byte) (s : State), s.acting → s.contactRight →
    (∀ (code : Byte) (v : BitVec 16),
      let p := s.setup.params
      let n := v.toNat
      (∀ x ∈ [(1, 0, 50, { p with staggerGap := n }), (2, 10, 250, { p with strikeLimit := n }),
          (3, 0, 50, { p with lampSettle := n }), (4, 10, 250, { p with runupLimit := n }),
          (5, 25, 500, { p with stopLimit := n }), (6, 10, 500, { p with dwellLimit := n }),
          (7, 3, 8, { p with motionWindow := n }), (8, 2, 6, { p with markLength := n }),
          (9, 2, 12, { p with markGap := n })],
        code.toNat = x.1 →
          (x.2.1 ≤ n ∧ n ≤ x.2.2.1 → exec (.setParam tag code v) s =
            .next ({ s with setup := { s.setup with params := x.2.2.2 } }.replies 22 tag 0
              #v[code, BitVec.ofNat 8 (n / 256), BitVec.ofNat 8 n, 0, 0, 0, 0, 0, 0, 0]))
          ∧ (n < x.2.1 ∨ x.2.2.1 < n → exec (.setParam tag code v) s =
            .next (s.replies 22 tag 2 (Vector.replicate 10 0))))
      ∧ (code.toNat < 1 ∨ 9 < code.toNat → exec (.setParam tag code v) s =
          .next (s.replies 22 tag 2 (Vector.replicate 10 0))))
    ∧ ∀ kind a b c d : Byte,
      (∀ (i : Fin 7) (w x y z : Verdict), kind.toNat = i.val + 1 → a.toNat = w.code → b.toNat = x.code →
        c.toNat = y.code → d.toNat = z.code → exec (.setScreen tag kind a b c d) s =
          .next ({ s with setup := { s.setup with screen := s.setup.screen.set i #v[w, x, y, z] } }.replies
            14 tag 0 (Vector.replicate 10 0)))
      ∧ (kind.toNat < 1 ∨ 7 < kind.toNat ∨ 2 < a.toNat ∨ 2 < b.toNat ∨ 2 < c.toNat ∨ 2 < d.toNat →
          exec (.setScreen tag kind a b c d) s = .next (s.replies 14 tag 2 (Vector.replicate 10 0)))

/-- R137: READ SCREEN of an order kind outside 1 to 7 is refused RANGE; otherwise the reply is DONE and
carries the four verdicts of that kind in the column order ON AIR, NEXT, IDLE, FAULTED. -/
def Obligations.ReadScreenAnswers : Prop :=
  ∀ (tag kind : Byte) (s : State), s.acting → s.contactRight →
    (∀ i : Fin 7, kind.toNat = i.val + 1 → exec (.readScreen tag kind) s =
      .next (s.replies 15 tag 0 #v[BitVec.ofNat 8 ((s.setup.screen.get i).get 0).code,
        BitVec.ofNat 8 ((s.setup.screen.get i).get 1).code,
        BitVec.ofNat 8 ((s.setup.screen.get i).get 2).code,
        BitVec.ofNat 8 ((s.setup.screen.get i).get 3).code, 0, 0, 0, 0, 0, 0]))
    ∧ (kind.toNat < 1 ∨ 7 < kind.toNat →
        exec (.readScreen tag kind) s = .next (s.replies 15 tag 2 (Vector.replicate 10 0)))

/-- From R147, R174, R148: SET RULE writes the rule whole, its match bits outside the mask clear, sets its eight
counters to 0 and changes nothing else; a rule above 15, a qualifier code of 3, a persistence outside 1 to 8
or an active rule with an empty mask is refused RANGE. READ RULE changes nothing and carries the record and
the eight counters, two to an octet; a rule above 15 is refused RANGE. -/
def Obligations.RulesWrittenAndRead : Prop :=
  ∀ (tag rule : Byte) (x : Vector Byte 5) (s : State), s.acting → s.contactRight →
    (∀ (i : Fin 16) (q : Qualifier) (a : RuleAction), rule.toNat = i.val →
      ((x[0] >>> 1) &&& 3).toNat = q.code → ((x[0] >>> 4) &&& 3).toNat = a.code →
      1 ≤ x[4].toNat → x[4].toNat ≤ 8 → (x[0].getLsbD 0 = true → x[2] ≠ 0) →
      exec (.setRule tag rule x) s = .next
        (State.replies { s with
          setup := { s.setup with
            rules := s.setup.rules.set i {
              active := x[0].getLsbD 0, positions := x[1], qualifier := q, mask := x[2]
              values := x[3] &&& x[2], persistence := x[4].toNat
              severity := if x[0].getLsbD 3 then .major else .minor, action := a } }
          run := { s.run with counters := s.run.counters.set i (Vector.replicate 8 0) } }
          16 tag 0 (Vector.replicate 10 0)))
    ∧ (15 < rule.toNat ∨ ((x[0] >>> 1) &&& 3).toNat = 3 ∨ x[4].toNat < 1 ∨ 8 < x[4].toNat
        ∨ (x[0].getLsbD 0 = true ∧ x[2] = 0) →
        exec (.setRule tag rule x) s = .next (s.replies 16 tag 2 (Vector.replicate 10 0)))
    ∧ (∀ i : Fin 16, rule.toNat = i.val →
      let y := s.setup.rules.get i
      let n := fun p : Fin 8 => (s.run.counters.get i).get p
      exec (.readRule tag rule) s = .next (s.replies 17 tag 0
        #v[(if y.active then 1 else 0) ||| BitVec.ofNat 8 (2 * y.qualifier.code)
            ||| (if y.severity = .major then 8 else 0) ||| BitVec.ofNat 8 (16 * y.action.code),
          y.positions, y.mask, y.values, BitVec.ofNat 8 y.persistence,
          BitVec.ofNat 8 (n 0 + 16 * n 1), BitVec.ofNat 8 (n 2 + 16 * n 3),
          BitVec.ofNat 8 (n 4 + 16 * n 5), BitVec.ofNat 8 (n 6 + 16 * n 7), 0]))
    ∧ (15 < rule.toNat →
        exec (.readRule tag rule) s = .next (s.replies 17 tag 2 (Vector.replicate 10 0)))

/-- R152: SET ALARM ENABLES with mode 1 turns on, with mode 0 off, the classes in the mask, and answers with
the 14 enables; it touches no slot. A mode above 1 or a mask with bit 14 or 15 is refused RANGE. R157: READ ALARMS
changes nothing. Group 0 carries pending and under-service bits of slots 0 to 17, the enables of classes 0 to 5
and the stack's depth; group 1 those of one position's eight slots and classes 6 to 13; another group, or a
position above 7 with group 1, is refused RANGE. That a set of bits over two or three octets has its most
significant octet first is the model's reading (log 29, DEDUCED). -/
def Obligations.EnablesWrittenAlarmsRead : Prop :=
  ∀ (tag : Byte) (s : State), s.acting → s.contactRight →
    (∀ (mode : Byte) (mask : BitVec 16),
      (mode.toNat ≤ 1 → mask.getLsbD 14 = false → mask.getLsbD 15 = false →
        ∃ (en : Vector Bool 14) (w : BitVec 16), exec (.setAlarmEnables tag mode mask) s =
            .next ({ s with setup := { s.setup with enables := en } }.replies 20 tag 0
              #v[w.extractLsb' 8 8, w.extractLsb' 0 8, 0, 0, 0, 0, 0, 0, 0, 0])
          ∧ (∀ n : Fin 14, en.get n = if mask.getLsbD n then mode == 1 else s.setup.enables.get n)
          ∧ (∀ n : Fin 14, w.getLsbD n = en.get n) ∧ w.getLsbD 14 = false ∧ w.getLsbD 15 = false)
      ∧ (1 < mode.toNat ∨ mask.getLsbD 14 = true ∨ mask.getLsbD 15 = true →
          exec (.setAlarmEnables tag mode mask) s = .next (s.replies 20 tag 2 (Vector.replicate 10 0))))
    ∧ ∀ group position : Byte,
      (group = 0 → ∃ d : Vector Byte 10,
        exec (.readAlarms tag group position) s = .next (s.replies 21 tag 0 d)
          ∧ (∀ k : Fin 82, k.val < 18 →
              (d[0] ++ d[1] ++ d[2] : BitVec 24).getLsbD k.val = (s.run.slots.get k).pending
              ∧ (d[3] ++ d[4] ++ d[5] : BitVec 24).getLsbD k.val = (s.run.slots.get k).underService)
          ∧ (∀ n : Fin 14, n.val < 6 → d[6].getLsbD n.val = s.setup.enables.get n)
          ∧ d[7] = BitVec.ofNat 8 s.run.stack.length)
      ∧ (∀ p : Fin 8, group = 1 → position.toNat = p.val → ∃ d : Vector Byte 10,
        exec (.readAlarms tag group position) s = .next (s.replies 21 tag 0 d)
          ∧ (∀ j : Fin 8, ∀ k : Fin 82, k.val = 18 + 8 * p.val + j.val →
              d[0].getLsbD j.val = (s.run.slots.get k).pending
              ∧ d[1].getLsbD j.val = (s.run.slots.get k).underService)
          ∧ (∀ j : Fin 8, ∀ n : Fin 14, n.val = 6 + j.val → d[2].getLsbD j.val = s.setup.enables.get n)
          ∧ d[3] = BitVec.ofNat 8 s.run.stack.length)
      ∧ (1 < group.toNat ∨ (group = 1 ∧ 7 < position.toNat) →
          exec (.readAlarms tag group position) s = .next (s.replies 21 tag 2 (Vector.replicate 10 0)))

/-- From R155, R156: TAKE ALARM takes the slot that is pending, not masked and ranks above every other such slot:
it leaves pending, goes under service and onto the stack; its number is the first data octet. RELEASE ALARM
pops the top of the stack and clears its under-service flag; a pending slot masked before and not after has its
noticed flag cleared. Nothing else changes but the contact. With no such slot, or an empty stack, the reply is
EMPTY and nothing changes. -/
def Obligations.AlarmsTakenAndReleased : Prop :=
  ∀ (tag : Byte) (s : State), s.acting → s.contactRight →
    let waits := fun k : Fin 82 => (s.run.slots.get k).pending = true ∧ masked s.run k = false
    ((∀ k, ¬ waits k) →
      exec (.takeAlarm tag) s = .next (s.replies 18 tag 6 (Vector.replicate 10 0)))
    ∧ (∀ k, waits k → (∀ j, waits j → j ≠ k → ranksAbove s.run k j = true) →
        ∃ t d, exec (.takeAlarm tag) s = .next t
          ∧ t.port = { s.port with loopOut := some (s.replyCell 18 tag 0 d), contact := t.port.contact }
          ∧ t.contactRight ∧ d[0] = BitVec.ofNat 8 k.val ∧ t.setup = s.setup ∧ t.pending = s.pending
          ∧ t.run = { s.run with stack := k :: s.run.stack, slots := t.run.slots }
          ∧ t.run.slots.get k = { s.run.slots.get k with
              pending := false, noticed := false, repeated := false, underService := true }
          ∧ ∀ j, j ≠ k → t.run.slots.get j = s.run.slots.get j)
    ∧ (s.run.stack = [] →
      exec (.releaseAlarm tag) s = .next (s.replies 19 tag 6 (Vector.replicate 10 0)))
    ∧ (∀ k rest, s.run.stack = k :: rest → ∃ t, exec (.releaseAlarm tag) s = .next t
        ∧ t.port = { s.port with
            loopOut := some (s.replyCell 19 tag 0 #v[BitVec.ofNat 8 k.val, 0, 0, 0, 0, 0, 0, 0, 0, 0])
            contact := t.port.contact }
        ∧ t.contactRight ∧ t.setup = s.setup ∧ t.pending = s.pending
        ∧ t.run = { s.run with stack := rest, slots := t.run.slots }
        ∧ ∀ j, t.run.slots.get j = { s.run.slots.get j with
            underService := (s.run.slots.get j).underService && j != k
            noticed := (s.run.slots.get j).noticed
              && !((s.run.slots.get j).pending && masked s.run j && !masked t.run j) })

/-- R24: READ POSITION changes nothing; the state view's bits and octets, and the place view's footage by
the division R24 gives; a position above 7 is refused RANGE. R70, R74, R125: READ CUE, READ REEL and READ CHAIN change
nothing; each is answered DONE for a number in range and RANGE otherwise. READ REEL shows the slots, the last
picture's presence, the cursor and the list length; READ CHAIN the station, the limits and the state; READ CUE
the tag and point of a LOADED record and 0 in the first nine octets of a VACANT one. -/
def Obligations.RecordsRead : Prop :=
  ∀ (tag : Byte) (s : State), s.acting → s.contactRight →
    (∀ position view : Byte,
      (∀ p : Fin 8, position.toNat = p.val → view ≠ 1 → ∃ d : Vector Byte 10,
        let m := s.run.motions.get p
        exec (.readPosition tag position view) s = .next (s.replies 2 tag 0 d)
          ∧ d[0].getLsbD 6 = (s.setup.positions.get p).isSome
          ∧ d[0].getLsbD 7 = !(s.run.scans.get p).hold == .none
          ∧ (∀ x, s.setup.positions.get p = some x → d[0] &&& 63 = x.station.setWidth 8)
          ∧ (d[1] >>> 3) &&& 7 = BitVec.ofNat 8 m.motion.code ∧ d[1].getLsbD 6 = m.stallFlag
          ∧ d[1].getLsbD 7 = m.silent ∧ d[2] &&& 7 = BitVec.ofNat 8 (s.run.lamps.get p).lamp.code
          ∧ (d[2] >>> 3) &&& 3 = BitVec.ofNat 8 (s.run.lamps.get p).dowser.code
          ∧ (d[2] >>> 5) &&& 3 = BitVec.ofNat 8 (roleOf s.setup s.run p).code
          ∧ d[2].getLsbD 7 = m.referenced ∧ d[3] = m.signals
          ∧ d[4] = BitVec.ofNat 8 (s.run.scans.get p).cursor
          ∧ (d[5] ++ d[6] ++ d[7] : BitVec 24) = BitVec.ofInt 24 m.value)
      ∧ (∀ p : Fin 8, position.toNat = p.val → view = 1 → ∃ d : Vector Byte 10,
        let v := (s.run.motions.get p).value
        let per := if (s.setup.positions.get p).map PosDef.gauge = some .mm16 then 40 else 16
        exec (.readPosition tag position view) s = .next (s.replies 2 tag 0 d)
          ∧ (d[0] ++ d[1] ++ d[2] : BitVec 24) = BitVec.ofInt 24 v ∧ d[3].getLsbD 0 = decide (v < 0)
          ∧ (d[4] ++ d[5] : BitVec 16) = BitVec.ofNat 16 (v.natAbs / per)
          ∧ d[6] = BitVec.ofNat 8 (v.natAbs % per))
      ∧ (7 < position.toNat →
          exec (.readPosition tag position view) s = .next (s.replies 2 tag 2 (Vector.replicate 10 0))))
    ∧ ∀ a b : Byte,
      (∀ p : Fin 8, a.toNat = p.val → ∃ d : Vector Byte 10,
        exec (.readReel tag a) s = .next (s.replies 11 tag 0 d)
          ∧ (∀ k : Fin 4, d[k.val]'(by omega) = match (s.setup.reels.get p).slots.get k with
              | some g => BitVec.ofNat 8 g.val
              | none => 255)
          ∧ d[4].getLsbD 0 = (s.setup.reels.get p).lastPicture.isSome
          ∧ d[8] = BitVec.ofNat 8 (s.run.scans.get p).cursor
          ∧ d[9] = BitVec.ofNat 8 (8 * ((s.setup.reels.get p).slots.toList.countP Option.isSome)))
      ∧ (7 < a.toNat → exec (.readReel tag a) s = .next (s.replies 11 tag 2 (Vector.replicate 10 0)))
      ∧ (∀ c : Fin 4, a.toNat = c.val → ∃ d : Vector Byte 10,
        exec (.readChain tag a) s = .next (s.replies 5 tag 0 d)
          ∧ d[0].getLsbD 6 = (s.setup.chains.get c).isSome
          ∧ (∀ x, s.setup.chains.get c = some x → d[0] &&& 63 = x.station.setWidth 8)
          ∧ d[3].getLsbD 0 = (s.setup.modes.get c).armed ∧ d[3].getLsbD 1 = (s.setup.modes.get c).fallback
          ∧ (d[3] >>> 2) &&& 7 = BitVec.ofNat 8 (s.run.chains.get c).state.code
          ∧ d[4] = BitVec.ofNat 8 (s.setup.modes.get c).holdLimit
          ∧ d[5] = BitVec.ofNat 8 (s.setup.modes.get c).switchLimit
          ∧ d[6] = BitVec.ofNat 8 (s.setup.modes.get c).runoutGuard)
      ∧ (3 < a.toNat → exec (.readChain tag a) s = .next (s.replies 5 tag 2 (Vector.replicate 10 0)))
      ∧ (∀ (g : Fin 32) (i : Fin 8), a.toNat = g.val → b.toNat = i.val → ∃ d : Vector Byte 10,
        exec (.readCue tag a b) s = .next (s.replies 7 tag 0 d)
          ∧ (∀ x, (s.setup.pages.get g).get i = some x → d[8] = x.tag ∧ d[0].getLsbD 7 = true
              ∧ (d[1] ++ d[2] ++ d[3] : BitVec 24) = BitVec.ofInt 24 x.point)
          ∧ ((s.setup.pages.get g).get i = none → ∀ n : Fin 9, d[n.val]'(by omega) = 0))
      ∧ (31 < a.toNat ∨ 7 < b.toNat →
          exec (.readCue tag a b) s = .next (s.replies 7 tag 2 (Vector.replicate 10 0)))

/-- From R67, R174, R69: LOAD CUE into a locked page is refused LOCKED. With the loaded bit clear the record becomes
VACANT; else action code 7 is refused BADREQ, and then RANGE a trigger position out of range, a MARK ordinal
outside 1 to 4, a backstop with a POSITION trigger, or a backstop out of range or below the trigger position;
otherwise the record is LOADED as its octets say. CLEAR PAGE of a locked page is refused LOCKED, of a page above
31 RANGE; otherwise its eight records become VACANT. Nothing else of the set-up changes, nor any motion record,
lamp record or notice. From R64, R68, R96, R109, with no page in two slots (DefinitionsKept keeps that): where the
record written stands at the cursor of the reel that holds the page, the reel's mark count is 0 and nothing of it is
held, its cursor, its runs and every other reel's scanning record stay, and nothing else changes, but that a chain
HOLDING that record, no port position past runout, leaves HOLDING for the state derived, hold sweeps taking the hold
timer's count. Written anywhere else, no run-time state changes. R68 speaks of a write that changes a record: that a
LOAD CUE of the contents the record already holds is a rewrite too, which ends the hold and clears the marks, is the
model's reading (log 22, DEDUCED). -/
def Obligations.CuePagesWritten : Prop :=
  ∀ (tag pr : Byte) (x : Vector Byte 9) (s : State), s.acting → s.contactRight → s.quiet →
    let point := (x[1] ++ x[2] ++ x[3] : BitVec 24).toInt
    let back := (x[4] ++ x[5] ++ x[6] : BitVec 24).toInt
    let n := x[7].toNat
    let isMark := x[0].getLsbD 6
    let hasBack := x[0].getLsbD 4
    let bad := point < -32768 ∨ 262143 < point ∨ (isMark = true ∧ (n = 0 ∨ 4 < n))
      ∨ (hasBack = true ∧ isMark = false)
      ∨ (hasBack = true ∧ (back < -32768 ∨ 262143 < back ∨ back < point))
    let rewrites := fun (t : State) (g : Fin 32) (written : Fin 8 → Prop) =>
      ((∀ q k, (s.setup.reels.get q).slots.get k ≠ some g) → t.run = s.run)
      ∧ ∀ (p : Fin 8) (k : Fin 4), (s.setup.reels.get p).slots.get k = some g →
        let y := s.run.scans.get p
        let first := 8 * ((s.setup.reels.get p).slots.toList.take k.val).countP Option.isSome
        ((∀ i, written i → y.cursor ≠ first + i.val) → t.run = s.run)
        ∧ (∀ i, written i → y.cursor = first + i.val →
            t.run.scans = s.run.scans.set p y.rewritten
            ∧ (y.hold ≠ .hold → t.run = { s.run with scans := t.run.scans })
            ∧ (∀ c z m i, y.hold = .hold → chainOf s.setup p = some (c, z) →
                let was := s.run.chains.get c
                was.state = .holding → was.hold = some m → was.observed = some i → PortsSingle s.setup →
                (∀ w r, portPosition s.setup c w = some r → pastRunout s.setup s.run c r = false) →
                t.run = { s.run with
                  scans := t.run.scans, runoutRaised := t.run.runoutRaised, tailStopped := t.run.tailStopped
                  chains := s.run.chains.set c
                    (was.unheld (s.setup.modes.get c).holdLimit (StateFrom s c i)) }))
    let ends := fun (i : Instr) (code : Nat) (g : Fin 32) (written : Fin 8 → Prop)
        (page : Vector (Option Cue) 8) => ∃ t, exec i s = .next t
      ∧ t.port.loopOut = some (s.replyCell code tag 0 (Vector.replicate 10 0))
      ∧ t.setup = { s.setup with pages := s.setup.pages.set g page }
      ∧ t.run.motions = s.run.motions ∧ t.run.lamps = s.run.lamps ∧ t.run.notices = s.run.notices
      ∧ LadderKept s t ∧ (PagesSingle s.setup → rewrites t g written)
    (∀ (g : Fin 32) (i : Fin 8), pr.toNat = 8 * g.val + i.val →
      (pageLocked s.setup s.run g = true →
        exec (.loadCue tag pr x) s = .next (s.replies 6 tag 3 (Vector.replicate 10 0)))
      ∧ (pageLocked s.setup s.run g = false →
        (x[0].getLsbD 7 = false → ends (.loadCue tag pr x) 6 g (· = i) ((s.setup.pages.get g).set i none))
        ∧ (x[0].getLsbD 7 = true → x[0] &&& 7 = 7 →
          exec (.loadCue tag pr x) s = .next (s.replies 6 tag 1 (Vector.replicate 10 0)))
        ∧ (x[0].getLsbD 7 = true → x[0] &&& 7 ≠ 7 → bad →
          exec (.loadCue tag pr x) s = .next (s.replies 6 tag 2 (Vector.replicate 10 0)))
        ∧ (∀ a : Action, x[0].getLsbD 7 = true → Action.ofOctet x[0] = some a → ¬ bad →
            ends (.loadCue tag pr x) 6 g (· = i) ((s.setup.pages.get g).set i (some {
              trigger := if isMark then .mark n (if hasBack then some back else none) else .position
              point := point, action := a, tag := x[8] })))))
    ∧ (31 < pr.toNat → exec (.clearPage tag pr) s = .next (s.replies 8 tag 2 (Vector.replicate 10 0)))
    ∧ (∀ g : Fin 32, pr.toNat = g.val → pageLocked s.setup s.run g = true →
        exec (.clearPage tag pr) s = .next (s.replies 8 tag 3 (Vector.replicate 10 0)))
    ∧ (∀ g : Fin 32, pr.toNat = g.val → pageLocked s.setup s.run g = false →
        ends (.clearPage tag pr) 8 g (fun _ => True) (Vector.replicate 8 none))

/-- From R71, R72, R77: MAP PAGE with a number out of range, or of a page into an undefined position, is refused
RANGE, of a moving position LOCKED, of a page in another slot CONFLICT; otherwise the slot is written. RESTART
CUES of a position neither STOPPED nor UNREPORTED is refused LOCKED, of one above 7 RANGE; otherwise it changes
no set-up. After either the reel's cursor and mark count are 0 and nothing of it is held; no other reel's scan
changes, nor any motion record, lamp record or notice. -/
def Obligations.ReelsMappedAndRestarted : Prop :=
  ∀ (tag position slot page : Byte) (s : State), s.acting → s.contactRight → s.quiet →
    let ends := fun (i : Instr) (code : Nat) (p : Fin 8) (reels : Vector Reel 8) => ∃ t, exec i s = .next t
      ∧ t.port.loopOut = some (s.replyCell code tag 0 (Vector.replicate 10 0))
      ∧ t.setup = { s.setup with reels := reels }
      ∧ t.run.scans.get p = { s.run.scans.get p with
          cursor := 0, marks := 0, hold := .none, partnerRan := false, met := none }
      ∧ (∀ q, q ≠ p → t.run.scans.get q = s.run.scans.get q)
      ∧ t.run.motions = s.run.motions ∧ t.run.lamps = s.run.lamps ∧ t.run.notices = s.run.notices
      ∧ LadderKept s t
    (7 < position.toNat ∨ 3 < slot.toNat ∨ 31 < page.toNat ∧ page ≠ 255
        ∨ page ≠ 255 ∧ (∃ p : Fin 8, position.toNat = p.val ∧ s.setup.positions.get p = none) →
      exec (.mapPage tag position slot page) s = .next (s.replies 9 tag 2 (Vector.replicate 10 0)))
    ∧ (∀ (p : Fin 8) (k : Fin 4) (g : Option (Fin 32)), position.toNat = p.val → slot.toNat = k.val →
      (∀ n, g = some n → page.toNat = n.val ∧ (s.setup.positions.get p).isSome = true) →
      (g = none → page = 255) →
      let taken := ∃ (q : Fin 8) (j : Fin 4) (n : Fin 32), g = some n
        ∧ (s.setup.reels.get q).slots.get j = some n ∧ ¬ (q = p ∧ j = k)
      ((s.run.motions.get p).motion.moving = true →
        exec (.mapPage tag position slot page) s = .next (s.replies 9 tag 3 (Vector.replicate 10 0)))
      ∧ ((s.run.motions.get p).motion.moving = false → taken →
        exec (.mapPage tag position slot page) s = .next (s.replies 9 tag 5 (Vector.replicate 10 0)))
      ∧ ((s.run.motions.get p).motion.moving = false → ¬ taken →
        ends (.mapPage tag position slot page) 9 p (s.setup.reels.set p
          { s.setup.reels.get p with slots := (s.setup.reels.get p).slots.set k g })))
    ∧ (7 < position.toNat →
      exec (.restartCues tag position) s = .next (s.replies 13 tag 2 (Vector.replicate 10 0)))
    ∧ (∀ p : Fin 8, position.toNat = p.val →
        ((s.run.motions.get p).motion ≠ .stopped ∧ (s.run.motions.get p).motion ≠ .unreported →
          exec (.restartCues tag position) s = .next (s.replies 13 tag 3 (Vector.replicate 10 0)))
        ∧ ((s.run.motions.get p).motion = .stopped ∨ (s.run.motions.get p).motion = .unreported →
          ends (.restartCues tag position) 13 p s.setup.reels))

/-- From R73, R75, R76, R174: SET REEL writes the last picture, present or absent, of a reel not locked and nothing
else of the set-up; SET POSITION gives a STOPPED or UNREPORTED defined position the value and makes it
referenced, with no other motion record and no set-up changed; where it changes no PRIMED or READY that a partner's
reel hears of, the cursor alone of the reels' records is placed, at the first LOADED record whose trigger position
is at or above the value, else at the list's end, with mark count 0 and nothing held, and no notice is queued.
Refusals: LOCKED while the position moves (SET
REEL) or is neither STOPPED nor UNREPORTED (SET POSITION), RANGE for a position above 7, a value out of range,
or, for SET POSITION, an undefined position. -/
def Obligations.ReelAndPositionSet : Prop :=
  ∀ (tag position flags : Byte) (w : Word24) (s : State), s.acting → s.contactRight → s.quiet →
    (7 < position.toNat ∨ (flags.getLsbD 0 = true ∧ (w.toInt < -32768 ∨ 262143 < w.toInt)) →
      exec (.setReel tag position flags w) s = .next (s.replies 10 tag 2 (Vector.replicate 10 0)))
    ∧ (7 < position.toNat ∨ w.toInt < -32768 ∨ 262143 < w.toInt →
      exec (.setPosition tag position w) s = .next (s.replies 12 tag 2 (Vector.replicate 10 0)))
    ∧ (∀ p : Fin 8, position.toNat = p.val →
        (flags.getLsbD 0 = true → -32768 ≤ w.toInt ∧ w.toInt ≤ 262143) →
        ((s.run.motions.get p).motion.moving = true →
          exec (.setReel tag position flags w) s = .next (s.replies 10 tag 3 (Vector.replicate 10 0)))
        ∧ ((s.run.motions.get p).motion.moving = false →
          ∃ t, exec (.setReel tag position flags w) s = .next t
            ∧ t.port.loopOut = some (s.replyCell 10 tag 0 (Vector.replicate 10 0))
            ∧ t.setup = { s.setup with
                reels := s.setup.reels.set p { s.setup.reels.get p with
                  lastPicture := if flags.getLsbD 0 then some w.toInt else none } }
            ∧ t.run.motions = s.run.motions ∧ t.run.lamps = s.run.lamps ∧ t.run.scans = s.run.scans
            ∧ t.run.notices = s.run.notices ∧ LadderKept s t))
    ∧ (∀ p : Fin 8, position.toNat = p.val → -32768 ≤ w.toInt → w.toInt ≤ 262143 →
        ((s.setup.positions.get p).isSome = false →
          exec (.setPosition tag position w) s = .next (s.replies 12 tag 2 (Vector.replicate 10 0)))
        ∧ ((s.setup.positions.get p).isSome = true →
            (s.run.motions.get p).motion ≠ .stopped ∧ (s.run.motions.get p).motion ≠ .unreported →
          exec (.setPosition tag position w) s = .next (s.replies 12 tag 3 (Vector.replicate 10 0)))
        ∧ ((s.setup.positions.get p).isSome = true →
            (s.run.motions.get p).motion = .stopped ∨ (s.run.motions.get p).motion = .unreported →
          ∃ t, exec (.setPosition tag position w) s = .next t
            ∧ t.port.loopOut = some (s.replyCell 12 tag 0 (Vector.replicate 10 0))
            ∧ t.setup = s.setup
            ∧ t.run.motions.get p = { s.run.motions.get p with value := w.toInt, referenced := true }
            ∧ (∀ q, q ≠ p → t.run.motions.get q = s.run.motions.get q) ∧ LadderKept s t
            ∧ (∀ n, n ≤ listLength s.setup p →
                (∀ j b, j < n → (cueList s.setup p)[j]? = some (some b) → b.point < w.toInt) →
                (n < listLength s.setup p →
                  ∃ b, (cueList s.setup p)[n]? = some (some b) ∧ w.toInt ≤ b.point) →
                (s.run.motions.get p).referenced = true ∨ partnerOf s.setup p = none
                  ∨ ((s.run.lamps.get p).lamp ≠ .lit ∧ (s.run.lamps.get p).primed = false
                    ∧ (s.run.lamps.get p).ready = false) →
                t.run.scans = s.run.scans.set p { s.run.scans.get p with
                    cursor := n, marks := 0, hold := .none, partnerRan := false, met := none }
                  ∧ t.run.notices = s.run.notices)))

/-- From R22, R23, R46, R79, R142: DEFINE POSITION of a free station for a position at rest, in no chain or in
one DARK or UNKNOWN, binds it and restarts its motion record, its lamp record and its reel's scanning record;
its strike entry is gone and its counters are 0 for all 16 rules; where the station changes no order for the old
one waits; station 255 undefines it. No other motion record, counter or set-up changes. A field out of range is
refused RANGE; a defined position neither STOPPED nor UNREPORTED, or a port position of a chain in another
state, BUSY; then the part's own station, or one that another position or a chain uses, CONFLICT. -/
def Obligations.DefinePositionBinds : Prop :=
  ∀ (tag position station gauge rate : Byte) (s : State), s.acting → s.contactRight → s.quiet →
    let answers := fun (result : Nat) => exec (.definePosition tag position station gauge rate) s =
      .next (s.replies 1 tag result (Vector.replicate 10 0))
    (7 < position.toNat ∨ 63 < station.toNat ∧ station ≠ 255
        ∨ station ≠ 255 ∧ (Gauge.ofOctet gauge = none ∨ Rate.ofOctet rate = none) → answers 2)
    ∧ ∀ p : Fin 8, position.toNat = p.val →
      let busy := ((s.setup.positions.get p).isSome = true
          ∧ (s.run.motions.get p).motion ≠ .stopped ∧ (s.run.motions.get p).motion ≠ .unreported)
        ∨ ∃ c x, chainOf s.setup p = some (c, x) ∧ (s.run.chains.get c).state ≠ .dark
          ∧ (s.run.chains.get c).state ≠ .unknown
      let ends := fun (new : Option PosDef) => ∃ t,
        exec (.definePosition tag position station gauge rate) s = .next t
          ∧ t.port.loopOut = some (s.replyCell 1 tag 0 (Vector.replicate 10 0))
          ∧ t.setup = { s.setup with positions := s.setup.positions.set p new }
          ∧ t.run.motions.get p = State.reset.run.motions.get p
          ∧ (∀ q, q ≠ p → t.run.motions.get q = s.run.motions.get q) ∧ LadderKept s t
          ∧ t.run.lamps.get p = State.reset.run.lamps.get p ∧ t.run.scans.get p = State.reset.run.scans.get p
          ∧ (∀ x ∈ t.run.strikeQueue, x.position ≠ p)
          ∧ (∀ (i : Fin 16) (q : Fin 8), (t.run.counters.get i).get q =
              if q = p then 0 else (s.run.counters.get i).get q)
          ∧ (StationsSingle s.port.own s.setup → ∀ d, s.setup.positions.get p = some d →
              (∀ x, new = some x → x.station ≠ d.station) → ∀ y ∈ t.run.orders, y.station ≠ d.station)
      (station = 255 → (busy → answers 4) ∧ (¬ busy → ends none))
      ∧ ∀ st g r, station.toNat = st.toNat → Gauge.ofOctet gauge = some g → Rate.ofOctet rate = some r →
        (busy → answers 4)
        ∧ (¬ busy →
            (st = s.port.own ∨ (∃ q, q ≠ p ∧ positionStation s.setup q = some st)
              ∨ (∃ c, chainStation s.setup c = some st) → answers 5)
            ∧ (st ≠ s.port.own → (∀ q, q ≠ p → positionStation s.setup q ≠ some st) →
                (∀ c, chainStation s.setup c ≠ some st) →
                ends (some { station := (st : Station), gauge := g, rate := r })))

/-- From R100, R123: DEFINE CHAIN of a chain undefined, DARK or UNKNOWN with a free station, and free and distinct
ports, every position at them at rest, binds it; station 255 undefines it. The chain's record is then as after a
full reset: observed selection absent, UNKNOWN, no hold, no switch, its timers idle. With no position at two ports
(DefinitionsKept keeps that) the runout raised and tail stopped flags of every position named at an old or a new
port, its motion neither RUNUP nor LOCKED, are clear. Every other chain's observed selection and every motion
record stay. A field out of range is refused RANGE; a
defined chain in another state, or a defined position at an old or a new port neither STOPPED nor UNREPORTED,
BUSY; then a station or a port in use, or the same position at both ports, CONFLICT. -/
def Obligations.DefineChainBinds : Prop :=
  ∀ (tag chain station a b caption : Byte) (s : State), s.acting → s.contactRight → s.quiet →
    let answers := fun (result : Nat) => exec (.defineChain tag chain station a b caption) s =
      .next (s.replies 3 tag result (Vector.replicate 10 0))
    let moves := fun p : Fin 8 => (s.setup.positions.get p).isSome = true
      ∧ (s.run.motions.get p).motion ≠ .stopped ∧ (s.run.motions.get p).motion ≠ .unreported
    (3 < chain.toNat ∨ 63 < station.toNat ∧ station ≠ 255
        ∨ station ≠ 255 ∧ (7 < a.toNat ∧ a ≠ 255 ∨ 7 < b.toNat ∧ b ≠ 255) → answers 2)
    ∧ ∀ c : Fin 4, chain.toNat = c.val →
      let busy := ((s.setup.chains.get c).isSome = true ∧ (s.run.chains.get c).state ≠ .dark
          ∧ (s.run.chains.get c).state ≠ .unknown)
        ∨ ∃ z p, portPosition s.setup c z = some p ∧ moves p
      let ends := fun (new : Option ChainDef) => ∃ t,
        exec (.defineChain tag chain station a b caption) s = .next t
          ∧ t.port.loopOut = some (s.replyCell 3 tag 0 (Vector.replicate 10 0))
          ∧ t.setup = { s.setup with chains := s.setup.chains.set c new }
          ∧ t.run.chains.get c = State.reset.run.chains.get c
          ∧ (PortsSingle s.setup → ∀ p,
              (∃ z, portPosition s.setup c z = some p)
                ∨ (∃ x, new = some x ∧ (x.port0 = some p ∨ x.port1 = some p)) →
              (s.run.motions.get p).motion ≠ .runup → (s.run.motions.get p).motion ≠ .locked →
              t.run.runoutRaised.get p = false ∧ t.run.tailStopped.get p = false)
          ∧ (∀ d, d ≠ c → (t.run.chains.get d).observed = (s.run.chains.get d).observed)
          ∧ t.run.motions = s.run.motions ∧ LadderKept s t
      (station = 255 → (busy → answers 4) ∧ (¬ busy → ends none))
      ∧ ∀ (st : Station) (x y : Option (Fin 8)), station.toNat = st.toNat →
        readPort a = some x → readPort b = some y →
        let taken := st = s.port.own ∨ (∃ p, positionStation s.setup p = some st)
          ∨ (∃ d, d ≠ c ∧ chainStation s.setup d = some st) ∨ (x.isSome = true ∧ x = y)
          ∨ ∃ d z p, d ≠ c ∧ portPosition s.setup d z = some p ∧ (x = some p ∨ y = some p)
        (busy ∨ (∃ p, (x = some p ∨ y = some p) ∧ moves p) → answers 4)
        ∧ (¬ busy → (∀ p, x = some p ∨ y = some p → ¬ moves p) →
            (taken → answers 5)
            ∧ (¬ taken → ends (some { station := st, port0 := x, port1 := y, caption := caption != 0 })))

/-- From R124: SET CHAIN MODE writes the mode, whatever the chain's state; a chain above 3 or a limit out of range
is refused RANGE. No motion record, observed selection or alarm under service changes. The rest is said with no
position at two ports (DefinitionsKept keeps that). From R95: a disarming that changes no Fallback and no guard, of
a port position's reel, with nothing to take on the other port's. A reel with nothing to take stays. The record at
the cursor, the last of its list, under HOLD or WAIT, deferred, or due with the hold NONE, completes SUPPRESSED (an
ANNOUNCE DONE, a partner record of no valid pair VOID) with its CUE notice; a trigger met BY BACKSTOP raises MARK
MISSING. Nothing else changes, but that a chain HOLDING that record, no port past runout, leaves HOLDING for the
state derived. From R117 to R120: Fallback turned on in SINGLE or DOUBLE with no disarming, the other port not past
runout. The on-air position past runout raises RUNOUT, once, and the chain switches to its fallback input, also
where a loss stands with a READY NEXT; that this guard goes first is the model's choice (log 44, DESIGN CHOICE).
Not past it, a loss that stands is answered as R117 gives: a READY NEXT's port with kind CHANGE, else the fallback
input, a NEXT whose lamp is DARK, the gate not FREE, joining the strike queue URGENT. With no loss nothing changes
but the runout flags. These are the model's too: the deferred record keeps the trigger it met and its BY BACKSTOP
mark, untested again (log 12, DEDUCED); READY is read as last published (log 31, DEDUCED). -/
def Obligations.SetChainModeWrites : Prop :=
  ∀ (tag chain mode h w g : Byte) (s : State), s.acting → s.contactRight → s.quiet →
    (3 < chain.toNat ∨ h.toNat < 5 ∨ 250 < h.toNat ∨ w.toNat < 2 ∨ 10 < w.toNat →
      exec (.setChainMode tag chain mode h w g) s = .next (s.replies 4 tag 2 (Vector.replicate 10 0)))
    ∧ (∀ c : Fin 4, chain.toNat = c.val → 5 ≤ h.toNat → h.toNat ≤ 250 → 2 ≤ w.toNat → w.toNat ≤ 10 →
      let old := s.setup.modes.get c
      let new : ChainMode := {
        armed := mode.getLsbD 0, fallback := mode.getLsbD 1, holdLimit := h.toNat
        switchLimit := w.toNat, runoutGuard := g.toNat }
      let was := s.run.chains.get c
      let leaves := fun (t : State) => exec (.setChainMode tag chain mode h w g) s = .next t
        ∧ t.port.loopOut = some (s.replyCell 4 tag 0 (Vector.replicate 10 0))
        ∧ t.setup = { s.setup with modes := s.setup.modes.set c new }
      (∃ t, leaves t ∧ t.run.motions = s.run.motions
        ∧ (∀ d, (t.run.chains.get d).observed = (s.run.chains.get d).observed) ∧ LadderKept s t)
      ∧ (∀ (p : Fin 8) (z : Port), PortsSingle s.setup → chainOf s.setup p = some (c, z) →
          (∀ q, portPosition s.setup c z.other = some q → NothingToTake s q) →
          old.armed = true → new.armed = false → new.fallback = old.fallback →
          new.runoutGuard = old.runoutGuard →
          let x := s.run.scans.get p
          let value := (s.run.motions.get p).value
          (NothingToTake s p → ∃ t, leaves t ∧ t.run = s.run)
          ∧ (∀ b : Cue, scanned s.setup s.run p = true → cursorRecord s.setup s.run p = some (some b) →
              x.cursor + 1 = listLength s.setup p → s.run.notices.length < 16 →
              let completed := fun (how : CueOutcome) (byBackstop : Bool) => ({ s.run with
                scans := s.run.scans.set p x.passed
                notices := s.run.notices
                  ++ [{ sweep := s.port.sweep, body := .cue p b.tag b.action how byBackstop value }] } : Run)
              let how : CueOutcome := if b.action = .announce then .done
                else if b.action.needsPartner = true ∧ pairValid s.setup c = false then .void else .suppressed
              (x.hold = .wait → b.action = .lampDown ∨ b.action = .tailStop →
                ∃ t, leaves t ∧ t.run = completed .suppressed (x.met == some true))
              ∧ (∀ y, x.hold = .none → x.met = some y → ∃ t, leaves t ∧ t.run = completed how y)
              ∧ (x.hold = .none → x.met = none → triggerMet b value x.marks = some false →
                ∃ t, leaves t ∧ t.run = completed how false)
              ∧ (x.hold = .none → x.met = none → triggerMet b value x.marks = some true →
                ∃ t, leaves t ∧ t.run = { completed how true with slots := t.run.slots }
                  ∧ RaisedIn s t (slotMarkMissing c) none
                  ∧ ∀ j, j ≠ slotMarkMissing c → t.run.slots.get j = s.run.slots.get j)
              ∧ (∀ q k, x.hold = .hold → partnerOf s.setup p = some q → was.state = .holding →
                was.hold = some (p, k) → was.observed = some z.input →
                (∀ y r, portPosition s.setup c y = some r → pastRunout s.setup s.run c r = false) →
                ∃ t, leaves t ∧ t.run = { completed .suppressed (x.met == some true) with
                  chains := s.run.chains.set c (was.unheld h.toNat (StateFrom s c z.input))
                  runoutRaised := t.run.runoutRaised, tailStopped := t.run.tailStopped })))
      ∧ (∀ (p : Fin 8) (z : Port) (d : ChainDef), PortsSingle s.setup → chainOf s.setup p = some (c, z) →
          s.setup.chains.get c = some d → isOnAir s.setup s.run p = true →
          was.state = .single ∨ was.state = .double → old.fallback = false → new.fallback = true →
          (old.armed = true → new.armed = true) →
          let past := fun (r : Fin 8) => ∃ v, (s.setup.reels.get r).lastPicture = some v
            ∧ (s.run.motions.get r).referenced = true ∧ v + (g.toNat : Int) ≤ (s.run.motions.get r).value
          (∀ q, portPosition s.setup c z.other = some q → ¬ past q) →
          let becomes := fun (t : State) (y : ChainRec) (orders : List OrderEntry) (queue : List StrikeEntry)
              (lamps : Vector LampRec 8) => leaves t ∧ t.run = { s.run with
                slots := t.run.slots, chains := s.run.chains.set c y, orders := orders, strikeQueue := queue
                lamps := lamps, runoutRaised := t.run.runoutRaised, tailStopped := t.run.tailStopped }
          let select := fun (i : Input) => enqueueOrder d.station (.select i) s.run.orders
          let back := fallbackInput s.setup c
          (past p → ∃ t, becomes t (was.switched back .fallback 0) (select back) s.run.strikeQueue s.run.lamps
            ∧ t.run.runoutRaised.get p = true
            ∧ (s.run.runoutRaised.get p = false → RaisedIn s t (slotRunout c) none)
            ∧ (s.run.runoutRaised.get p = true → t.run.slots = s.run.slots)
            ∧ ∀ j, j ≠ slotRunout c → t.run.slots.get j = s.run.slots.get j)
          ∧ (¬ past p → ¬ LossStands s p →
              ∃ t, becomes t was s.run.orders s.run.strikeQueue s.run.lamps ∧ t.run.slots = s.run.slots)
          ∧ (∀ i k, ¬ past p → LossStands s p → LossAnswer s c z p i k →
              (k = .change ∨ (∀ q, IsNext s p q → (s.run.lamps.get q).lamp ≠ .dark) →
                ∃ t, becomes t (was.switched i k 0) (select i) s.run.strikeQueue s.run.lamps
                  ∧ t.run.slots = s.run.slots)
              ∧ (∀ q, k = .fallback → IsNext s p q → (s.run.lamps.get q).lamp = .dark → s.run.gate ≠ .free →
                ∃ t, becomes t (was.switched i k 0) (select i)
                    (s.run.strikeQueue ++ [{ position := q, cls := .urgent }])
                    (s.run.lamps.set q { s.run.lamps.get q with lamp := .queued })
                  ∧ t.run.slots = s.run.slots))))

/-- From R119 to R121: an accepted SET REEL evaluates the runout of its position, also where it writes the last
picture the reel already holds (log 37, DESIGN CHOICE). In no chain nothing changes; not past runout, the runout
raised and tail stopped flags are cleared. Past runout and on air: in SINGLE, DOUBLE and HOLDING RUNOUT is
raised and the flag set, once, and in SINGLE and DOUBLE with Fallback on the chain switches to its fallback
input; in SWITCHING nothing changes. A SET CHAIN MODE that changes the runout guard alone evaluates both ports:
a running position off air and past runout, not the target of a CHANGE, its tail stopped flag clear, has STOP
and then DOWSER CLOSE queued and the flag set, nothing raised; said where no other position of the chain is past
runout. Said with no position at two ports, which DefinitionsKept keeps. -/
def Obligations.RunoutGuarded : Prop :=
  ∀ (tag position : Byte) (p : Fin 8) (c : Fin 4) (z : Port) (s : State), s.acting → s.contactRight → s.quiet →
    PortsSingle s.setup → position.toNat = p.val →
    let was := s.run.chains.get c
    let onFilm := was.state = .single ∨ was.state = .double
    let isPast := fun (last : Option Int) (guard : Nat) (r : Fin 8) => ∃ v, last = some v
      ∧ (s.run.motions.get r).referenced = true ∧ v + (guard : Int) ≤ (s.run.motions.get r).value
    let clear : Run := { s.run with
      runoutRaised := s.run.runoutRaised.set p false, tailStopped := s.run.tailStopped.set p false }
    (∀ (flags : Byte) (w : Word24), (s.run.motions.get p).motion.moving = false →
      (flags.getLsbD 0 = true → -32768 ≤ w.toInt ∧ w.toInt ≤ 262143) →
      let last := if flags.getLsbD 0 then some w.toInt else none
      let past := isPast last (s.setup.modes.get c).runoutGuard p
      let ends := fun (r : Run) => exec (.setReel tag position flags w) s = .next
        (State.replies { s with
          setup := { s.setup with reels := s.setup.reels.set p { s.setup.reels.get p with lastPicture := last } }
          run := r } 10 tag 0 (Vector.replicate 10 0))
      let raises := fun (orders : List OrderEntry) (y : ChainRec) => ∃ t,
        exec (.setReel tag position flags w) s = .next t ∧ t.contactRight ∧ RaisedIn s t (slotRunout c) none
          ∧ (∀ j, j ≠ slotRunout c → t.run.slots.get j = s.run.slots.get j)
          ∧ t.run = { s.run with
              slots := t.run.slots, orders := orders, chains := s.run.chains.set c y
              runoutRaised := s.run.runoutRaised.set p true }
      (chainOf s.setup p = none → ends s.run)
      ∧ (chainOf s.setup p = some (c, z) → ¬ past → ends clear)
      ∧ (chainOf s.setup p = some (c, z) → past → isOnAir s.setup s.run p = true →
          (was.state = .switching → ends s.run)
          ∧ (was.state = .holding → s.run.runoutRaised.get p = false → raises s.run.orders was)
          ∧ (was.state = .holding → s.run.runoutRaised.get p = true → ends s.run)
          ∧ (onFilm → (s.setup.modes.get c).fallback = false →
              (s.run.runoutRaised.get p = false → raises s.run.orders was)
              ∧ (s.run.runoutRaised.get p = true → ends s.run))
          ∧ (∀ d, s.setup.chains.get c = some d → onFilm → (s.setup.modes.get c).fallback = true →
              let orders := enqueueOrder d.station (.select (fallbackInput s.setup c)) s.run.orders
              let y := was.switched (fallbackInput s.setup c) .fallback 0
              (s.run.runoutRaised.get p = false → raises orders y)
              ∧ (s.run.runoutRaised.get p = true →
                  ends { s.run with orders := orders, chains := s.run.chains.set c y }))))
    ∧ (∀ (chain mode h w g : Byte) (d : PosDef), chain.toNat = c.val → 5 ≤ h.toNat → h.toNat ≤ 250 →
        2 ≤ w.toNat → w.toNat ≤ 10 → mode.getLsbD 0 = (s.setup.modes.get c).armed →
        mode.getLsbD 1 = (s.setup.modes.get c).fallback → g.toNat ≠ (s.setup.modes.get c).runoutGuard →
        chainOf s.setup p = some (c, z) → s.setup.positions.get p = some d → isOnAir s.setup s.run p = false →
        (s.run.motions.get p).motion = .runup ∨ (s.run.motions.get p).motion = .locked →
        isPast (s.setup.reels.get p).lastPicture g.toNat p → s.run.tailStopped.get p = false →
        ¬ (was.state = .switching ∧ was.target = some (z.input, .change)) →
        (∀ q, portPosition s.setup c z.other = some q → ¬ isPast (s.setup.reels.get q).lastPicture g.toNat q) →
        ∃ t, exec (.setChainMode tag chain mode h w g) s = .next t
          ∧ t.run = { s.run with
              orders := enqueueOrder d.station .dowserClose (enqueueOrder d.station .stop s.run.orders)
              runoutRaised := t.run.runoutRaised, tailStopped := t.run.tailStopped }
          ∧ t.run.tailStopped.get p = true)

/-! ### Orders and outbound VOIDs -/

/-- R101, R102, R127, R128 and the table of R128: why an order is blocked. A SELECT to a chain in SWITCHING is
blocked SWITCHING whatever the table and the flag; else BLOCK blocks TABLE, FORCE without the flag UNFORCED, and
PASS, or FORCE with the flag, passes. The column read is the role of the addressed position; of a SELECT, the role of
the position at the selected port, and IDLE for the caption, black and a port that holds no position. With no
position at two ports (DefinitionsKept keeps that) the role is: IDLE of an undefined position; FAULTED of one that is
BROKEN or SILENT or has lamp fault set; else ON AIR of the position at the port its chain's observed selection shows;
NEXT of the other port's, where both are defined and equal in gauge and in rate; IDLE of any other, in no chain
included. -/
def Obligations.ScreenVerdicts : Prop :=
  ∀ (su : Setup) (r : Run) (d : DeskOrder) (force : Bool),
    (∀ st c i, d = .select st c i → (r.chains.get c).state = .switching →
      screened su r d force = some .switching)
    ∧ ((∀ st c i, d = .select st c i → (r.chains.get c).state ≠ .switching) →
        let v := (su.screen.get d.order.row).get (columnOf su r d).column
        (v = .pass → screened su r d force = none)
        ∧ (v = .block → screened su r d force = some .table)
        ∧ (v = .force → screened su r d force = if force then none else some .unforced))
    ∧ (∀ st p o, d = .position st p o → columnOf su r d = roleOf su r p)
    ∧ (∀ st c i, d = .select st c i →
        (∀ z p, i = Port.input z → portPosition su c z = some p → columnOf su r d = roleOf su r p)
        ∧ (i = .caption ∨ i = .black ∨ (∃ z, i = Port.input z ∧ portPosition su c z = none) →
            columnOf su r d = .idle))
    ∧ (PortsSingle su → ∀ p : Fin 8,
        (su.positions.get p = none → roleOf su r p = .idle)
        ∧ (∀ x, su.positions.get p = some x →
            let faulted := (r.motions.get p).motion = .broken ∨ (r.motions.get p).silent = true
              ∨ (r.lamps.get p).fault = true
            let carries := fun (c : Fin 4) (z : Port) => portPosition su c z = some p
              ∧ (r.chains.get c).observed = some z.input
            let follows := fun (c : Fin 4) (z : Port) => portPosition su c z = some p
              ∧ (r.chains.get c).observed = some z.other.input
              ∧ ∃ q y, portPosition su c z.other = some q ∧ su.positions.get q = some y ∧ x.gauge = y.gauge
                ∧ x.rate = y.rate
            (faulted → roleOf su r p = .faulted)
            ∧ (¬ faulted → (∃ c z, carries c z) → roleOf su r p = .onAir)
            ∧ (¬ faulted → (∃ c z, follows c z) → roleOf su r p = .next)
            ∧ (¬ faulted → (∀ c z, ¬ carries c z ∧ ¬ follows c z) → roleOf su r p = .idle)))

/-- From R7, R129, R134: a suited desk order that the screen blocks queues a BLOCKED notice, and what then comes of
its cell is what comes of an outbound VOID; with no order of the part waiting a VOID leaves and nothing else
changes. With the notice queue full the notice is discarded and QUEUE raised. That the BLOCKED notice goes before the
notices which the insertion brings is the model's choice (log 51, DESIGN CHOICE). -/
def Obligations.BlockedOrderBecomesVoid : Prop :=
  ∀ (st : Byte) (m : Payload) (d : DeskOrder) (why : BlockReason) (s : State), s.acting → s.contactRight →
    s.quiet → deskOrder s.setup st m = some d →
    screened s.setup s.run d (m[2].getLsbD 1) = some why →
    let note : Notice := { sweep := s.port.sweep
                           body := .blocked d.station d.order (columnOf s.setup s.run d) why }
    (s.run.notices.length < 16 → exec (.outboundOrder st m) s =
        exec (.outboundVoid 0 (Vector.replicate 13 0))
          { s with run := { s.run with notices := s.run.notices ++ [note] } })
    ∧ (s.run.notices.length < 16 → s.run.orders = [] → exec (.outboundOrder st m) s =
        .next (State.shows { s with run := { s.run with notices := s.run.notices ++ [note] } }
          .outbound (Cell.make .void 0 (Vector.replicate 13 0))))
    ∧ (16 ≤ s.run.notices.length → ∃ u : State, exec (.outboundOrder st m) s =
          exec (.outboundVoid 0 (Vector.replicate 13 0)) u
        ∧ u = { s with run := { s.run with slots := u.run.slots } } ∧ RaisedIn s u 1 none
        ∧ ∀ k : Fin 82, k ≠ 1 → u.run.slots.get k = s.run.slots.get k)

/-- R31, R32, R130: a desk START or STOP that passes is forwarded unchanged and taken: START moves STOPPED or
STOPPING to RUNUP with the runup timer at 0, STOP moves RUNUP or LOCKED to STOPPING with the stop timer at 0
and the stall window cleared; in every other state, and for every other position, the motion record stays. -/
def Obligations.PassedStartStopTaken : Prop :=
  ∀ (st : Byte) (m : Payload) (x : Station) (p : Fin 8) (o : Order) (s : State), s.acting →
    s.contactRight → s.quiet → deskOrder s.setup st m = some (.position x p o) →
    screened s.setup s.run (.position x p o) (m[2].getLsbD 1) = none → o = .start ∨ o = .stop →
    let before := s.run.motions.get p
    ∃ t, exec (.outboundOrder st m) s = .next t
      ∧ t.port = { s.port with loopOut := some (Cell.make .order st m), contact := t.port.contact }
      ∧ t.setup = s.setup
      ∧ (o = .start → before.motion = .stopped ∨ before.motion = .stopping →
          t.run.motions.get p = { before with
            motion := .runup, runup := some 0, stop := .idle, stall := 0, stallFlag := false })
      ∧ (o = .start → before.motion ≠ .stopped ∧ before.motion ≠ .stopping → t.run.motions.get p = before)
      ∧ (o = .stop → before.motion = .runup ∨ before.motion = .locked →
          t.run.motions.get p = { before with
            motion := .stopping, runup := none, stop := .running 0, stall := 0, stallFlag := false })
      ∧ (o = .stop → before.motion ≠ .runup ∧ before.motion ≠ .locked → t.run.motions.get p = before)
      ∧ (∀ q, q ≠ p → t.run.motions.get q = s.run.motions.get q) ∧ LadderKept s t

/-- From R51, R58, R130: a desk DOWSER OPEN, DOWSER CLOSE or LAMP DOWN that passes is forwarded unchanged and
removes the part's own waiting order of its family for the station. DOWSER OPEN does nothing more; DOWSER CLOSE
sets the dwell counter to 0 and nothing else changes. LAMP DOWN, for a position with no partner or with neither
PRIMED nor READY published, makes a DARK, SETTLING or LIT lamp DARK with lamp-down pending and its settle counter
idle, and leaves an UNREPORTED one. In a state StrikesSound (which every step keeps, CountsKept) it makes a QUEUED
lamp the same, its entry gone from the strike queue, and a STRIKING one, its strike timer idle and the gate in GAP
at 0, or FREE with Stagger gap 0 where no entry that waits is eligible. -/
def Obligations.PassedLampOrderTaken : Prop :=
  ∀ (st : Byte) (m : Payload) (x : Station) (p : Fin 8) (o : Order) (s : State), s.acting →
    s.contactRight → s.quiet → deskOrder s.setup st m = some (.position x p o) →
    screened s.setup s.run (.position x p o) (m[2].getLsbD 1) = none →
    let kept := s.run.orders.filter (fun y => !(y.station == x && y.order.family == o.family))
    let was := s.run.lamps.get p
    let ends := fun (l : LampRec) (queue : List StrikeEntry) (gate : Gate) => exec (.outboundOrder st m) s = .next
      (State.shows { s with
        run := { s.run with orders := kept, lamps := s.run.lamps.set p l, strikeQueue := queue, gate := gate } }
        .outbound (Cell.make .order st m))
    let down : LampRec := { was with lamp := .dark, downPending := true, primed := false, ready := false }
    (o = .dowserOpen → ends was s.run.strikeQueue s.run.gate)
    ∧ (o = .dowserClose → ends { was with dwell := 0 } s.run.strikeQueue s.run.gate)
    ∧ (o = .lampDown → partnerOf s.setup p = none ∨ was.primed = false ∧ was.ready = false →
        (was.lamp = .dark ∨ was.lamp = .lit → ends down s.run.strikeQueue s.run.gate)
        ∧ (was.lamp = .settling → ends { down with settle := none } s.run.strikeQueue s.run.gate)
        ∧ (was.lamp = .unreported →
            ends { was with primed := false, ready := false } s.run.strikeQueue s.run.gate))
    ∧ (o = .lampDown → StrikesSound s.run →
        (was.lamp = .queued → ends down (s.run.strikeQueue.filter (fun y => y.position != p)) s.run.gate)
        ∧ (was.lamp = .striking →
            0 < s.setup.params.staggerGap
              ∨ (∀ y ∈ s.run.strikeQueue, (s.run.lamps.get y.position).downPending = true) →
            ends { down with strikeTimer := none } s.run.strikeQueue
              (if s.setup.params.staggerGap = 0 then .free else .gap 0)))

/-- From R53, R131: a desk LAMP UP that passes is not forwarded; for a lamp that is not DARK, what comes of its cell
is what comes of an outbound VOID. For a DARK lamp, with the gate not FREE, an ORDINARY entry first joins the
strike queue and the lamp is QUEUED. With no order of the part waiting a VOID leaves and nothing else changes. -/
def Obligations.PassedLampUpRerouted : Prop :=
  ∀ (st : Byte) (m : Payload) (x : Station) (p : Fin 8) (s : State), s.acting → s.contactRight → s.quiet →
    deskOrder s.setup st m = some (.position x p .lampUp) →
    screened s.setup s.run (.position x p .lampUp) (m[2].getLsbD 1) = none →
    let entry : StrikeEntry := { position := p, cls := .ordinary }
    let queued : State := { s with
      run := { s.run with
        strikeQueue := s.run.strikeQueue ++ [entry]
        lamps := s.run.lamps.set p { s.run.lamps.get p with lamp := .queued } } }
    let as := fun (u : State) =>
      exec (.outboundOrder st m) s = exec (.outboundVoid 0 (Vector.replicate 13 0)) u
      ∧ (s.run.orders = [] → exec (.outboundOrder st m) s =
          .next (u.shows .outbound (Cell.make .void 0 (Vector.replicate 13 0))))
    ((s.run.lamps.get p).lamp ≠ .dark → as s)
    ∧ ((s.run.lamps.get p).lamp = .dark → s.run.gate ≠ .free → as queued)

/-- From R112, R130: a desk SELECT that passes is forwarded unchanged and removes the part's own waiting SELECT for
that station. The chain enters SWITCHING with that input as target, kind DESK, from input the observed selection,
SELECT SENT and the switch timer at 0. Of a chain not HOLDING nothing else changes; that its hold sweeps become 0
is the model's reading (log 16, DEDUCED). Of a chain HOLDING the hold is none, the hold timer idle and hold sweeps
the timer's count, or the hold limit where it had expired; its reels take the SELECT with the chain in SWITCHING
(log 14, DEDUCED), and no set-up, motion record or observed selection changes. -/
def Obligations.PassedSelectTaken : Prop :=
  ∀ (st : Byte) (m : Payload) (x : Station) (c : Fin 4) (i : Input) (s : State), s.acting → s.contactRight →
    s.quiet → deskOrder s.setup st m = some (.select x c i) →
    screened s.setup s.run (.select x c i) (m[2].getLsbD 1) = none →
    ((s.run.chains.get c).state ≠ .holding → exec (.outboundOrder st m) s = .next
      (State.shows { s with
        run := { s.run with
          orders := s.run.orders.filter (fun y => !(y.station == x && y.order.family == Family.select))
          chains := s.run.chains.set c { s.run.chains.get c with
            target := some (i, .desk), fromInput := (s.run.chains.get c).observed, select := .sent
            switchTimer := some 0, holdSweeps := 0, state := .switching } } }
        .outbound (Cell.make .order st m)))
    ∧ ((s.run.chains.get c).state = .holding → ∃ t, exec (.outboundOrder st m) s = .next t
        ∧ t.port = { s.port with loopOut := some (Cell.make .order st m), contact := t.port.contact }
        ∧ t.setup = s.setup ∧ t.run.motions = s.run.motions ∧ LadderKept s t
        ∧ t.run.chains.get c = { s.run.chains.get c with
            target := some (i, .desk), fromInput := (s.run.chains.get c).observed, select := .sent
            switchTimer := some 0, state := .switching, hold := none, holdTimer := .idle
            holdSweeps := match (s.run.chains.get c).holdTimer with
              | .running n => n
              | .expired => (s.setup.modes.get c).holdLimit
              | .idle => 0 }
        ∧ ∀ d, (t.run.chains.get d).observed = (s.run.chains.get d).observed)

/-- From R8, R31, R32, R58, R112, R134, R135: with no order waiting an outbound VOID is forwarded as it stands;
otherwise the oldest SELECT, else the oldest order, leaves the queue and leaves the part as an ORDER cell to its
station with origin part and the force flag clear. An inserted lamp order or DOWSER OPEN does nothing more; an
inserted DOWSER CLOSE sets the dwell counter to 0; an inserted SELECT makes SELECT SENT of a chain that is
SWITCHING with SELECT QUEUED, and does nothing more of any other. An inserted START or STOP is taken by the
motion machine as a passed one is, before the hand-offs that follow from it. -/
def Obligations.OutboundVoidFilled : Prop :=
  ∀ (st : Byte) (m : Payload) (s : State), s.acting → s.contactRight → s.quiet →
    (s.run.orders = [] →
      exec (.outboundVoid st m) s = .next (s.shows .outbound (Cell.make .void st m)))
    ∧ (∀ before x after, s.run.orders = before ++ x :: after → x ∉ before →
        (x.order.family = .select ∧ (∀ y ∈ before, y.order.family ≠ .select)
          ∨ before = [] ∧ ∀ y ∈ s.run.orders, y.order.family ≠ .select) →
        let cell := Cell.make .order (x.station.setWidth 8)
          #v[BitVec.ofNat 8 x.order.code, x.order.argument, 1, 0, 0, 0, 0, 0, 0, 0, 0, 0, 0]
        let taken : Run := { s.run with orders := before ++ after }
        let ends := fun (r : Run) => exec (.outboundVoid st m) s =
          .next ({ s with run := r }.shows .outbound cell)
        (x.order = .lampUp ∨ x.order = .lampDown ∨ x.order = .dowserOpen → ends taken)
        ∧ (∀ p, x.order = .dowserClose → positionAt s.setup x.station = some p →
            ends { taken with lamps := s.run.lamps.set p { s.run.lamps.get p with dwell := 0 } })
        ∧ (∀ i c, x.order = .select i → chainAt s.setup x.station = some c →
            ((s.run.chains.get c).state = .switching → (s.run.chains.get c).select = .queued →
              ends { taken with chains := s.run.chains.set c { s.run.chains.get c with select := .sent } })
            ∧ ((s.run.chains.get c).state ≠ .switching ∨ (s.run.chains.get c).select ≠ .queued → ends taken))
        ∧ (∀ p, x.order = .start ∨ x.order = .stop → positionAt s.setup x.station = some p →
            let was := s.run.motions.get p
            let goes := x.order = .start ∧ (was.motion = .stopped ∨ was.motion = .stopping)
              ∨ x.order = .stop ∧ (was.motion = .runup ∨ was.motion = .locked)
            (¬ goes → ends taken)
            ∧ (goes → ∃ t r, exec (.outboundVoid st m) s = .next t ∧ t.run = drain s.env r
                ∧ r = { taken with motions := r.motions, handoffs := r.handoffs }
                ∧ r.motions = s.run.motions.set p
                    (if x.order = .start then
                      { was with motion := .runup, runup := some 0, stop := .idle, stall := 0, stallFlag := false }
                    else
                      { was with
                        motion := .stopping, runup := none, stop := .running 0, stall := 0, stallFlag := false })
                ∧ t.run.motions = r.motions))
        ∧ (positionAt s.setup x.station = none → chainAt s.setup x.station = none → ends taken)
        ∧ (∃ t, exec (.outboundVoid st m) s = .next t ∧ t.port.loopOut = some cell
            ∧ t.setup = s.setup ∧ LadderKept s t))

/-! ### Reports, return VOIDs and sweep ends -/

/-- R10, R25 to R28, R42: the first report of a position in the sweep is forwarded and delivered: the
position joins the reported set, its frame count and signals become the last, its miss count is 0, SILENT and
resync due are clear; its value goes up by a delta of 1 to 2,047 frames modulo 65,536, stopping at +262,143,
and stays at a delta of 0, at a first report and at a jump of 2,048 or more, which leaves it unreferenced.
No other motion record changes. -/
def Obligations.ReportCountsFrames : Prop :=
  ∀ (st : Byte) (m : Payload) (x : Station) (p : Fin 8) (s : State), s.acting → s.contactRight → s.quiet →
    stationOf st = some x → positionAt s.setup x = some p → s.port.reportedPositions.get p = false →
    let before := s.run.motions.get p
    let now : BitVec 16 := m[1] ++ m[2]
    ∃ t, exec (.returnState st m) s = .next t
      ∧ t.port = { s.port with
          reportedPositions := s.port.reportedPositions.set p true
          loopRet := some (Cell.make .state st m), contact := t.port.contact }
      ∧ t.setup = s.setup
      ∧ (t.run.motions.get p).lastCount = some now ∧ (t.run.motions.get p).signals = m[0]
      ∧ (t.run.motions.get p).miss = 0 ∧ (t.run.motions.get p).silent = false
      ∧ (t.run.motions.get p).resyncDue = false
      ∧ (before.lastCount = none → (t.run.motions.get p).value = before.value)
      ∧ (∀ l, before.lastCount = some l →
          let d := (now - l).toNat
          (d = 0 → (t.run.motions.get p).value = before.value)
          ∧ (1 ≤ d → d ≤ 2047 → (t.run.motions.get p).value = min (before.value + d) 262143)
          ∧ (2048 ≤ d → (t.run.motions.get p).value = before.value
              ∧ (t.run.motions.get p).referenced = false))
      ∧ (∀ q, q ≠ p → t.run.motions.get q = s.run.motions.get q) ∧ LadderKept s t

/-- R30, R33, R34, R36, R37, R39, R40: the motion state a delivered report leaves, judged by MOTOR (bit 1),
SPEED (bit 2) and FILM (bit 0) of the last signals and of the report, and what BREAK and HALT it raises. -/
def Obligations.ReportMovesMachine : Prop :=
  ∀ (st : Byte) (m : Payload) (x : Station) (p : Fin 8) (s : State), s.acting → s.contactRight → s.quiet →
    SettingsInRange s.setup →
    stationOf st = some x → positionAt s.setup x = some p → s.port.reportedPositions.get p = false →
    let before := s.run.motions.get p
    let film := m[0].getLsbD 0
    let motor := m[0].getLsbD 1
    let speed := m[0].getLsbD 2
    let filmLost := before.signals.getLsbD 0 && !film
    let motorLost := before.signals.getLsbD 1 && !motor
    let now : BitVec 16 := m[1] ++ m[2]
    ∃ t, exec (.returnState st m) s = .next t
      ∧ (let after := t.run.motions.get p
        (before.motion = .unreported → before.lastCount = none → before.stall = 0 →
          after.motion = if motor then (if speed then .locked else .runup) else .stopped)
        ∧ (before.motion = .stopped → after.motion = if motor then .runup else .stopped)
        ∧ (before.motion = .runup ∨ before.motion = .locked → filmLost = true →
            after.motion = .broken ∧ after.referenced = false ∧ after.runup = none
              ∧ RaisedIn s t (slotBreak p) (some after.value))
        ∧ (before.motion = .runup ∨ before.motion = .locked → filmLost = false → motorLost = true →
            after.motion = .stopping ∧ after.stop = .running 0 ∧ after.runup = none
              ∧ RaisedIn s t (slotHalt p) (some after.value))
        ∧ (before.motion = .runup → filmLost = false → motorLost = false →
            after.motion = if speed then .locked else .runup)
        ∧ (before.motion = .locked → filmLost = false → motorLost = false → motor = true → speed = false →
            after.motion = .runup ∧ after.runup = some 0)
        ∧ (∀ l, before.motion = .locked → filmLost = false → motorLost = false → speed = true →
            before.lastCount = some l → 1 ≤ (now - l).toNat → (now - l).toNat ≤ 2047 →
            after.motion = .locked ∧ after.stall = 0 ∧ after.stallFlag = false)
        ∧ (before.motion = .stopping → motor = false → before.lastCount = some now →
            after.motion = .stopped ∧ after.stop = .idle)
        ∧ (before.motion = .stopping → motor = true → before.signals.getLsbD 1 = false →
            after.motion = .runup ∧ after.runup = some 0 ∧ after.stop = .idle)
        ∧ (before.motion = .broken → after.motion = if film && !motor then .stopped else .broken))

/-- From R25, R44, R61, R82: a delivered report leaves to the hand-offs that follow it the report's LAMP and DOWSER
signals for the Lamp Unit, its DOT signal for the Cue Scanner, with an advance exactly where the frame count
brought 1 to 2,047 frames of a referenced position, and its eight signals for the Rule Unit with the motion state
after the motion step; none of those blocks has yet acted. From R98, R141, R143, taken by its block, in every run-time
state: the DOT signal moves the position's dot run, clear run and preceding clear run, and no other detector; the
signals move, of an active rule that covers the position, that position's counter, up by one to the persistence at
most where the motion fits and the signals match and to 0 where not, and no other counter. -/
def Obligations.ReportHandedToBlocks : Prop :=
  (∀ (st : Byte) (m : Payload) (x : Station) (p : Fin 8) (s : State), s.acting → s.quiet →
    stationOf st = some x → positionAt s.setup x = some p → s.port.reportedPositions.get p = false →
    ∃ t r advance judged, exec (.returnState st m) s = .next t ∧ t.run = drain s.env r
      ∧ .lampReport p (m[0].getLsbD 3) (m[0].getLsbD 4) ∈ r.handoffs
      ∧ .cueReport p (m[0].getLsbD 7) advance ∈ r.handoffs ∧ .ruleReport p m[0] judged ∈ r.handoffs
      ∧ (advance = true ↔ (r.motions.get p).referenced = true ∧ ∃ l, (s.run.motions.get p).lastCount = some l
          ∧ 1 ≤ ((m[1] ++ m[2] : BitVec 16) - l).toNat ∧ ((m[1] ++ m[2] : BitVec 16) - l).toNat ≤ 2047)
      ∧ ((r.motions.get p).motion ≠ .broken → judged = (r.motions.get p).motion)
      ∧ r.lamps = s.run.lamps ∧ r.scans = s.run.scans ∧ r.counters = s.run.counters
      ∧ r.chains = s.run.chains ∧ r.gate = s.run.gate ∧ r.strikeQueue = s.run.strikeQueue)
  ∧ (∀ (e : Env) (p : Fin 8) (dot advance : Bool) (r : Run), (e.setup.positions.get p).isSome = true →
      let x := r.scans.get p
      let y := (takeHandoff e (.cueReport p dot advance) r).scans.get p
      (dot = true → y.dotRun = min 7 (x.dotRun + 1)
        ∧ (x.dotRun = 0 → y.precedingClear = x.clearRun ∧ y.clearRun = 0)
        ∧ (x.dotRun ≠ 0 → y.precedingClear = x.precedingClear ∧ y.clearRun = x.clearRun))
      ∧ (dot = false → y.dotRun = 0 ∧ y.clearRun = min 15 (x.clearRun + 1)
          ∧ y.precedingClear = x.precedingClear)
      ∧ ∀ q, q ≠ p →
          let a := r.scans.get q
          let b := (takeHandoff e (.cueReport p dot advance) r).scans.get q
          b.dotRun = a.dotRun ∧ b.clearRun = a.clearRun ∧ b.precedingClear = a.precedingClear)
  ∧ ∀ (e : Env) (p : Fin 8) (w : Byte) (motion : Motion) (r : Run) (i : Fin 16) (q : Fin 8),
      let rule := e.setup.rules.get i
      let n := (r.counters.get i).get q
      ((takeHandoff e (.ruleReport p w motion) r).counters.get i).get q =
        if q = p ∧ rule.active = true ∧ rule.positions.getLsbD p.val = true then
          if (rule.qualifier = .moving → motion = .runup ∨ motion = .locked)
              ∧ (rule.qualifier = .stopped → motion = .stopped) ∧ w &&& rule.mask = rule.values &&& rule.mask
            then min rule.persistence (n + 1) else 0
        else n

/-- From R46 to R50, R52, R54, R56, R60: what the Lamp Unit makes of a report's LAMP and DOWSER signals, in
every run-time state. The dowser is as reported, lamp-down pending is cleared by LAMP clear, and PRIMED and
READY stand as worked afresh. UNREPORTED adopts LIT or DARK. A LAMP with lamp-down pending clear makes a DARK or
QUEUED lamp SETTLING, its strike entry gone, and a STRIKING one SETTLING, its timer idle and the gate in GAP;
with Lamp settle 0 each is LIT at once; lamp fault is cleared. LAMP clear of a SETTLING or LIT lamp makes it
DARK with lamp fault set, raises LAMP and hands the fault on; nothing else raises, and none queues an order but
a grant. Every other report leaves the lamp as it was, but that a QUEUED lamp whose lamp-down pending it clears,
alone in the queue of a FREE gate, is granted. -/
def Obligations.ReportMovesLamp : Prop :=
  ∀ (e : Env) (p : Fin 8) (lamp dowser : Bool) (r : Run),
    let l := r.lamps.get p
    let t := takeHandoff e (.lampReport p lamp dowser) r
    let y := t.lamps.get p
    let settles := y.fault = false ∧ y.lamp = (if e.setup.params.lampSettle = 0 then .lit else .settling)
      ∧ y.settle = if e.setup.params.lampSettle = 0 then none else some 0
    let keeps := y.lamp = l.lamp ∧ y.fault = l.fault ∧ y.strikeTimer = l.strikeTimer ∧ y.settle = l.settle
      ∧ t.strikeQueue = r.strikeQueue ∧ t.gate = r.gate
    y.dowser = (if dowser then .opened else .closed) ∧ y.downPending = (l.downPending && lamp)
    ∧ y.dwell = l.dwell ∧ y.primed = primedNow e.setup t p ∧ y.ready = readyNow t p
    ∧ t.motions = r.motions ∧ t.notices = r.notices ∧ t.chains = r.chains ∧ t.scans = r.scans
    ∧ (l.lamp = .unreported → y.lamp = (if lamp then .lit else .dark) ∧ y.fault = l.fault ∧ y.settle = l.settle
        ∧ y.strikeTimer = l.strikeTimer ∧ t.slots = r.slots ∧ t.orders = r.orders ∧ t.gate = r.gate)
    ∧ (l.lamp = .dark ∨ l.lamp = .queued → lamp = true → l.downPending = false →
        settles ∧ t.strikeQueue =
            (if l.lamp = .queued then r.strikeQueue.filter (fun x => x.position != p) else r.strikeQueue)
          ∧ t.gate = r.gate ∧ t.slots = r.slots ∧ t.orders = r.orders)
    ∧ (l.lamp = .dark → lamp = false ∨ l.downPending = true → keeps ∧ t.slots = r.slots ∧ t.orders = r.orders)
    ∧ (l.lamp = .queued →
        lamp = false ∧ (l.downPending = false ∨ r.gate ≠ .free) ∨ lamp = true ∧ l.downPending = true →
        keeps ∧ t.slots = r.slots ∧ t.orders = r.orders)
    ∧ (∀ cls, l.lamp = .queued → lamp = false → l.downPending = true → r.gate = .free →
        r.strikeQueue = [{ position := p, cls := cls }] →
        y.lamp = .striking ∧ y.strikeTimer = some 0 ∧ t.gate = .striking p ∧ t.strikeQueue = []
          ∧ t.slots = r.slots ∧ ∀ d, e.setup.positions.get p = some d →
            t.orders = enqueueOrder d.station .lampUp r.orders)
    ∧ (l.lamp = .striking → lamp = true → r.gate = .striking p → 0 < e.setup.params.staggerGap →
        settles ∧ y.strikeTimer = none ∧ t.gate = .gap 0 ∧ t.strikeQueue = r.strikeQueue ∧ t.slots = r.slots
          ∧ t.orders = r.orders)
    ∧ (l.lamp = .striking ∧ lamp = false ∨ (l.lamp = .settling ∨ l.lamp = .lit) ∧ lamp = true →
        keeps ∧ t.slots = r.slots ∧ t.orders = r.orders)
    ∧ (l.lamp = .settling ∨ l.lamp = .lit → lamp = false →
        y.lamp = .dark ∧ y.settle = none ∧ y.fault = true ∧ t.slots = (raisePosition e (slotLamp p) p r).slots
          ∧ .chainFault p ∈ t.handoffs ∧ .chainLampFault p ∈ t.handoffs ∧ t.orders = r.orders
          ∧ t.strikeQueue = r.strikeQueue ∧ t.gate = r.gate)

/-- From R11, R105, R109, R111, R113, R115, R117, R118, R122: the first MUX report of a chain in the sweep with an
input 0 to 3 is forwarded and delivered: the chain joins the reported set and its observed selection is the input
reported (in SWITCHING a report of the from input changes nothing). No other chain's observed selection changes, and
no motion record. An unexpected selection queues an ADOPT notice, where there is room, with the observed selection,
or in SWITCHING the target and the from input. A switch confirmed queues a CHANGE notice, where there is room, and
leaves SWITCHING with its target and timer cleared: at the caption or black the chain is FALLBACK for kind FALLBACK
and DARK otherwise; a CHANGE to a defined position that is FAULTED or not running is at once a switch to the fallback
input, made before the reels take the end of SWITCHING (log 39, DESIGN CHOICE). The states left are said where the
chain's reels have nothing to take and none is past runout: the first report of an UNKNOWN chain (log 45, DESIGN
CHOICE), an unexpected selection in DARK, SINGLE, DOUBLE or FALLBACK (log 13, DEDUCED), and any other confirmation
of a projector port leave the state derived. In HOLDING it stays, but that
the held record, the last of its list, of a position last worked on air, completes SUPPRESSED and leaves the state
derived. In SWITCHING an input neither target nor from ends the switch, the state derived; where a loss stands, with
Fallback on and no position at two ports (DefinitionsKept), the chain then answers as R117 gives, a NEXT's READY read
as last published (log 31, DEDUCED). -/
def Obligations.MuxReportObserved : Prop :=
  ∀ (st : Byte) (m : Payload) (x : Station) (c : Fin 4) (i : Input) (s : State), s.acting →
    s.contactRight → s.quiet → stationOf st = some x → chainAt s.setup x = some c →
    s.port.reportedChains.get c = false → m[0].toNat = i.code →
    let before := s.run.chains.get c
    let fallback := (s.setup.modes.get c).fallback
    let derived := StateFrom s c i
    let still := fun q : Fin 8 => NothingToTake s q ∧ pastRunout s.setup s.run c q = false
    let allStill := ∀ p y, chainOf s.setup p = some (c, y) → still p
    let adopts := fun (t : State) (first second : Option Input) => s.run.notices.length < 16 →
      ∃ rest, t.run.notices = s.run.notices
        ++ [{ sweep := s.port.sweep, body := .adopt c i first second }] ++ rest
    ∃ t, exec (.returnMux st m) s = .next t
      ∧ t.port = { s.port with
          reportedChains := s.port.reportedChains.set c true
          loopRet := some (Cell.make .mux st m), contact := t.port.contact }
      ∧ t.setup = s.setup ∧ t.run.motions = s.run.motions ∧ LadderKept s t
      ∧ (∀ d, d ≠ c → (t.run.chains.get d).observed = (s.run.chains.get d).observed)
      ∧ (before.state ≠ .switching → (t.run.chains.get c).observed = some i)
      ∧ (before.state = .unknown → allStill →
          t.run.chains.get c = { before with observed := some i, state := derived })
      ∧ (before.state ≠ .switching → before.state ≠ .unknown → before.observed = some i → t.run = s.run)
      ∧ (before.state ≠ .switching → before.state ≠ .unknown → before.observed ≠ some i →
          adopts t before.observed none
          ∧ (before.state ≠ .holding → allStill →
              t.run.chains.get c = { before with observed := some i, state := derived })
          ∧ (before.state = .holding → allStill → t.run.chains.get c = { before with observed := some i })
          ∧ (∀ p q k z b, before.state = .holding → before.hold = some (p, k) →
              before.observed = some (Port.input z) → chainOf s.setup p = some (c, z) →
              partnerOf s.setup p = some q → still q → PortsSingle s.setup →
              isOnAir s.setup s.run p = true → RolesWorked s → scanned s.setup s.run p = true →
              pastRunout s.setup s.run c p = false → (s.run.scans.get p).hold = .hold →
              cursorRecord s.setup s.run p = some (some b) →
              (s.run.scans.get p).cursor + 1 = listLength s.setup p → s.run.notices.length < 15 →
              t.run.chains.get c = { before.unheld (s.setup.modes.get c).holdLimit derived with observed := some i }
                ∧ t.run.scans = s.run.scans.set p (s.run.scans.get p).passed
                ∧ t.run.notices = s.run.notices
                  ++ [{ sweep := s.port.sweep, body := .adopt c i before.observed none },
                    { sweep := s.port.sweep
                      body := .cue p b.tag b.action .suppressed ((s.run.scans.get p).met == some true)
                        (s.run.motions.get p).value }]))
      ∧ (∀ j k, before.state = .switching → before.target = some (j, k) →
          (j = i → (t.run.chains.get c).observed = some i
            ∧ (s.run.notices.length < 16 → ∃ rest, t.run.notices = s.run.notices ++
                [{ sweep := s.port.sweep
                   body := .change c before.fromInput i k before.holdSweeps }] ++ rest)
            ∧ (i = .caption ∨ i = .black → t.run.chains.get c =
                before.unswitched (some i) (if k = .fallback then .fallback else .dark))
            ∧ (∀ z q, i = Port.input z → portPosition s.setup c z = some q →
                (k = .change → (s.setup.positions.get q).isSome = true → LossStands s q → t.run.chains.get c =
                  ((before.unswitched (some i) .switching).switched (fallbackInput s.setup c) .fallback 0))
                ∧ (k ≠ .fallback → (k = .change → ¬ LossStands s q) → allStill →
                    t.run.chains.get c = before.unswitched (some i) derived)))
          ∧ (j ≠ i → before.fromInput = some i → t.run = s.run)
          ∧ (j ≠ i → before.fromInput ≠ some i → (t.run.chains.get c).observed = some i
              ∧ adopts t (some j) before.fromInput
              ∧ (allStill → PortsSingle s.setup →
                  let lost := fun z q => i = Port.input z ∧ portPosition s.setup c z = some q
                    ∧ (s.setup.positions.get q).isSome = true ∧ LossStands s q
                  (fallback = false ∨ (∀ z q, ¬ lost z q) →
                    t.run.chains.get c = before.unswitched (some i) derived)
                  ∧ (∀ z q a k, fallback = true → lost z q → LossAnswer s c z q a k →
                    t.run.chains.get c = (before.unswitched (some i) derived).switched a k 0))))

/-- From R12, R154, R172 and the table of 11.3: a return VOID carries an ALARM notice of the highest-ranked slot
that is pending, not noticed and not masked, whose noticed flag it sets: kind 1, the current sweep number, the
slot, its severity, repeat and presence bits, and its captured sweep, value and rule. With none, the oldest
queued notice, which leaves the queue, in the layout of its kind with the sweep it was queued in; with neither,
it is forwarded as it stands. These are the model's: the captured rule octet is 0 where no rule is present (log 42,
DESIGN CHOICE); the argument octet of a BLOCKED notice is the input of a SELECT and 0 for order kinds 1 to 6, whatever
the desk's cell carried there (log 20, DEDUCED). -/
def Obligations.ReturnVoidFilled : Prop :=
  ∀ (st : Byte) (m : Payload) (s : State), s.acting → s.contactRight →
    let waits := fun k : Fin 82 => (s.run.slots.get k).pending = true
      ∧ (s.run.slots.get k).noticed = false ∧ masked s.run k = false
    let octet := fun (v : Int) (n : Nat) => (BitVec.ofInt 24 v).extractLsb' n 8
    let absent := fun (x : Option Input) => match x with | some i => BitVec.ofNat 8 i.code | none => (255 : Byte)
    (∀ k, waits k → (∀ j, waits j → j ≠ k → ranksAbove s.run k j = true) →
      ∃ d : Payload, exec (.returnVoid st m) s = .next
          ({ s with
            run := { s.run with
              slots := s.run.slots.set k { s.run.slots.get k with noticed := true } } }.shows
            .ret (Cell.make .notice (s.port.own.setWidth 8) d))
        ∧ (let x := s.run.slots.get k
          d[0] = 1 ∧ d[1] = s.port.sweep ∧ d[2] = BitVec.ofNat 8 k.val
          ∧ d[3].getLsbD 0 = decide (severityOf s.run k = .major) ∧ d[3].getLsbD 1 = x.repeated
          ∧ d[3].getLsbD 2 = x.value.isSome ∧ d[3].getLsbD 3 = x.rule.isSome
          ∧ (∀ w, x.sweep = some w → d[4] = w)
          ∧ (∀ v, x.value = some v → d[5] = octet v 16 ∧ d[6] = octet v 8 ∧ d[7] = octet v 0)
          ∧ (x.value = none → d[5] = 0 ∧ d[6] = 0 ∧ d[7] = 0)
          ∧ (∀ i w, x.rule = some (i, w) → d[8] = BitVec.ofNat 8 i.val) ∧ (x.rule = none → d[8] = 0)
          ∧ d[9] = 0 ∧ d[10] = 0 ∧ d[11] = 0 ∧ d[12] = 0))
    ∧ ((∀ k, ¬ waits k) → ∀ n rest, s.run.notices = n :: rest →
        let leaves := fun d : Payload => exec (.returnVoid st m) s = .next
          ({ s with run := { s.run with notices := rest } }.shows
            .ret (Cell.make .notice (s.port.own.setWidth 8) d))
        (∀ p k, n.body = .clear p k →
          leaves #v[2, n.sweep, BitVec.ofNat 8 p.val, (if k = .brk then 6 else 9), 0, 0, 0, 0, 0, 0, 0, 0, 0])
        ∧ (∀ p tag a how byBackstop v, n.body = .cue p tag a how byBackstop v →
          leaves #v[3, n.sweep, BitVec.ofNat 8 p.val, tag, BitVec.ofNat 8 a.code, BitVec.ofNat 8 how.code,
            (if byBackstop then 1 else 0), octet v 16, octet v 8, octet v 0, 0, 0, 0])
        ∧ (∀ x o column why, n.body = .blocked x o column why →
          leaves #v[4, n.sweep, x.setWidth 8, BitVec.ofNat 8 o.code, o.argument, BitVec.ofNat 8 column.code,
            BitVec.ofNat 8 why.code, 0, 0, 0, 0, 0, 0])
        ∧ (∀ c first target k h, n.body = .change c first target k h →
          leaves #v[5, n.sweep, BitVec.ofNat 8 c.val, absent first, BitVec.ofNat 8 target.code,
            BitVec.ofNat 8 k.code, BitVec.ofNat 8 h, 0, 0, 0, 0, 0, 0])
        ∧ (∀ c reported first second, n.body = .adopt c reported first second →
          leaves #v[6, n.sweep, BitVec.ofNat 8 c.val, BitVec.ofNat 8 reported.code, absent first,
            absent second, 0, 0, 0, 0, 0, 0, 0])
        ∧ (∀ p why v, n.body = .unref p why v →
          leaves #v[7, n.sweep, BitVec.ofNat 8 p.val, (if why = .jump then 0 else 1), octet v 16, octet v 8,
            octet v 0, 0, 0, 0, 0, 0, 0]))
    ∧ ((∀ k, ¬ waits k) → s.run.notices = [] →
        exec (.returnVoid st m) s = .next (s.shows .ret (Cell.make .void st m)))

/-- From R13, R35, R36, R41, R52, R55, R56, R59, R108, R114: a return TAIL is the sweep end: it is forwarded, both
reported sets are emptied, every defined position not in the set has its miss count up by one, to 2 at most, and
every other miss count stays. No position value, reference or last report changes, and no SILENT flag is cleared. A
runup or stop timer short of its limit goes up by one and its position stays RUNUP or STOPPING. Where nothing falls
due (NothingDue) every timer and counter that runs goes up by one, the dwell counter of a position that does not
dwell goes to 0, and nothing else changes. -/
def Obligations.SweepEndCounts : Prop :=
  ∀ (st : Byte) (m : Payload) (s : State), s.acting → s.contactRight → s.quiet →
    ∃ t, exec (.sweepEnd st m) s = .next t
      ∧ t.port = { s.port with
          reportedPositions := Vector.replicate 8 false
          reportedChains := Vector.replicate 4 false
          loopRet := some (Cell.make .tail st m), contact := t.port.contact }
      ∧ t.setup = s.setup ∧ LadderKept s t
      ∧ (∀ p : Fin 8,
          let before := s.run.motions.get p
          let after := t.run.motions.get p
          (after.miss = if (s.setup.positions.get p).isSome = true
              ∧ s.port.reportedPositions.get p = false then min 2 (before.miss + 1) else before.miss)
          ∧ after.value = before.value ∧ after.referenced = before.referenced
          ∧ after.lastCount = before.lastCount ∧ after.signals = before.signals
          ∧ after.resyncDue = before.resyncDue ∧ (before.silent = true → after.silent = true)
          ∧ (∀ n, before.motion = .runup → before.runup = some n → n + 1 < s.setup.params.runupLimit →
              after.motion = .runup ∧ after.runup = some (n + 1))
          ∧ (∀ n, before.motion = .stopping → before.stop = .running n → n + 1 < s.setup.params.stopLimit →
              after.motion = .stopping ∧ after.stop = .running (n + 1)))
      ∧ (NothingDue s →
          t.run = { s.run with
            motions := t.run.motions, lamps := t.run.lamps, chains := t.run.chains
            gate := match s.run.gate with
              | .gap n => .gap (n + 1)
              | g => g }
          ∧ (∀ p : Fin 8,
              let a := s.run.motions.get p
              let l := s.run.lamps.get p
              t.run.motions.get p = { a with
                miss := (t.run.motions.get p).miss
                runup := if a.motion = .runup then a.runup.map (· + 1) else a.runup
                stop := match a.motion, a.stop with
                  | .stopping, .running n => .running (n + 1)
                  | _, x => x }
              ∧ t.run.lamps.get p = { l with
                strikeTimer := if l.lamp = .striking then l.strikeTimer.map (· + 1) else l.strikeTimer
                settle := if l.lamp = .settling then l.settle.map (· + 1) else l.settle
                dwell := if (s.setup.positions.get p).isSome = true ∧ (l.lamp = .settling ∨ l.lamp = .lit)
                    ∧ l.dowser = .opened ∧ a.motion = .stopped then l.dwell + 1 else 0 })
          ∧ ∀ c : Fin 4,
              let x := s.run.chains.get c
              t.run.chains.get c = { x with
                holdTimer := match x.state, x.holdTimer with
                  | .holding, .running n => .running (n + 1)
                  | _, h => h
                switchTimer := if x.state = .switching then x.switchTimer.map (· + 1) else x.switchTimer })

/-! ### The part's own events (log 4: each row is the one count or report that brings the event) -/

/-- A row of an event that is not due, and every such row of a part that is not LOCKED, changes nothing (log 4, DESIGN
CHOICE; R15): a miss that is not the second of a position not yet SILENT; a timer or counter that one more sweep
leaves short of its limit, or that does not run; a stall count short of W, or past it, for the flag, and short of
2W for the break; a report with DOT that makes no mark; a gate not FREE or with no eligible entry; signals that
fire no rule. -/
def Obligations.EventNotDueChangesNothing : Prop :=
  ∀ (p : Fin 8) (c : Fin 4) (w : Byte) (s : State),
    let m := s.run.motions.get p
    let l := s.run.lamps.get p
    let x := s.run.chains.get c
    let y := s.run.scans.get p
    let a := s.setup.params
    let defined := (s.setup.positions.get p).isSome = true
    let stays := fun i : Instr => exec i s = .next s
    (s.port.acting = false →
      ∀ i ∈ [Instr.missCountSilent p, .runupExpiry p, .stopExpiry p, .stallFlag p, .stallBreak p,
        .markRecognised p, .settleExpiry p, .strikeExpiry p, .staggerGapExpiry, .strikeGrant,
        .dwellExpiry p, .holdExpiry c, .switchExpiry c, .ruleFire p w, .silenceTimerExpiry], stays i)
    ∧ (¬ defined ∨ m.miss = 0 ∨ m.silent = true → stays (.missCountSilent p))
    ∧ (m.motion ≠ .runup ∨ (∀ n, m.runup = some n → n + 1 < a.runupLimit) → stays (.runupExpiry p))
    ∧ (m.motion ≠ .stopping ∨ (∀ n, m.stop = .running n → n + 1 < a.stopLimit) → stays (.stopExpiry p))
    ∧ (m.motion ≠ .locked ∨ m.stall + 1 < a.motionWindow ∨ 2 * a.motionWindow ≤ m.stall + 1 →
        stays (.stallFlag p))
    ∧ (m.motion ≠ .locked ∨ m.stall + 1 < 2 * a.motionWindow → stays (.stallBreak p))
    ∧ (¬ defined ∨ a.markLength ≤ y.dotRun ∨ (y.dotRun + 1 < a.markLength)
        ∨ (1 ≤ y.dotRun ∧ y.precedingClear < a.markGap) ∨ (y.dotRun = 0 ∧ y.clearRun < a.markGap) →
        stays (.markRecognised p))
    ∧ (l.lamp ≠ .settling ∨ (∀ n, l.settle = some n → n + 1 < a.lampSettle) → stays (.settleExpiry p))
    ∧ (l.lamp ≠ .striking ∨ (∀ n, l.strikeTimer = some n → n + 1 < a.strikeLimit) → stays (.strikeExpiry p))
    ∧ ((∀ n, s.run.gate = .gap n → n + 1 < a.staggerGap) → stays .staggerGapExpiry)
    ∧ (s.run.gate ≠ .free ∨ (∀ e ∈ s.run.strikeQueue, (s.run.lamps.get e.position).downPending = true) →
        stays .strikeGrant)
    ∧ (0 < a.dwellLimit → ¬ defined ∨ (l.lamp ≠ .settling ∧ l.lamp ≠ .lit) ∨ l.dowser ≠ .opened
        ∨ m.motion ≠ .stopped ∨ l.dwell + 1 < a.dwellLimit → stays (.dwellExpiry p))
    ∧ (x.state ≠ .holding ∨ x.holdTimer = .idle
        ∨ (∃ n, x.holdTimer = .running n ∧ n + 1 < (s.setup.modes.get c).holdLimit) → stays (.holdExpiry c))
    ∧ (x.state ≠ .switching ∨ (∀ n, x.switchTimer = some n → n + 1 < (s.setup.modes.get c).switchLimit) →
        stays (.switchExpiry c))
    ∧ (¬ defined ∨ (∀ j : Fin 16,
          let r := s.setup.rules.get j
          r.active = false ∨ r.positions.getLsbD p.val = false ∨ w &&& r.mask ≠ r.values &&& r.mask
            ∨ (r.qualifier = .moving ∧ m.motion ≠ .runup ∧ m.motion ≠ .locked)
            ∨ (r.qualifier = .stopped ∧ m.motion ≠ .stopped)
            ∨ (s.run.counters.get j).get p + 1 < r.persistence
            ∨ r.persistence ≤ (s.run.counters.get j).get p) → stays (.ruleFire p w))

/-- From R35, R36, R41: the second miss in a row sets SILENT and raises it. The runup timer reaching Runup limit
raises HALT, queues STOP for the station and makes the position STOPPING, the runup timer idle and the stop
timer at 0. Neither changes another motion record. The stop timer reaching Stop limit raises STOP, once, and
stands expired; the position stays STOPPING and nothing else changes. That each row makes the one count that brings
the expiry, or the second miss, is the model's choice (log 4, DESIGN CHOICE). -/
def Obligations.MotionTimersExpire : Prop :=
  ∀ (p : Fin 8) (n : Nat) (s : State), s.acting → s.quiet →
    ((s.setup.positions.get p).isSome = true → (s.run.motions.get p).miss = 1 →
      (s.run.motions.get p).silent = false →
      ∃ t, exec (.missCountSilent p) s = .next t ∧ OnlyBlocksActed s t ∧ LadderKept s t
        ∧ t.run.motions = s.run.motions.set p { s.run.motions.get p with miss := 2, silent := true }
        ∧ RaisedIn s t (slotSilent p) (some (s.run.motions.get p).value))
    ∧ ((s.run.motions.get p).motion = .runup → (s.run.motions.get p).runup = some n →
      s.setup.params.runupLimit ≤ n + 1 →
      ∃ t r, exec (.runupExpiry p) s = .next t ∧ OnlyBlocksActed s t ∧ LadderKept s t
        ∧ t.run.motions = s.run.motions.set p { s.run.motions.get p with
            motion := .stopping, runup := none, stop := .running 0, stall := 0, stallFlag := false }
        ∧ RaisedIn s t (slotHalt p) (some (s.run.motions.get p).value)
        ∧ t.run = drain s.env r
        ∧ (∀ d, s.setup.positions.get p = some d →
            r.orders = enqueueOrder d.station .stop s.run.orders))
    ∧ ((s.run.motions.get p).motion = .stopping → (s.run.motions.get p).stop = .running n →
      s.setup.params.stopLimit ≤ n + 1 →
      ∃ t, exec (.stopExpiry p) s = .next t ∧ OnlyBlocksActed s t
        ∧ t.run = { s.run with
            motions := s.run.motions.set p { s.run.motions.get p with stop := .expired }
            slots := t.run.slots }
        ∧ RaisedIn s t (slotStop p) (some (s.run.motions.get p).value)
        ∧ ∀ k, k ≠ slotStop p → t.run.slots.get k = s.run.slots.get k)

/-- From R38, R39: the stall count of a LOCKED position reaching W sets the STALL flag; reaching 2W it makes the
position BROKEN, with BREAK raised, STOP and then DOWSER CLOSE queued for the station, and, where it was referenced,
unreferenced with an UNREF notice with reason BREAK, where there is room. That these rows are a report with no
advance of which only the stall count acts is the model's choice (log 5, DESIGN CHOICE). -/
def Obligations.StallFlagsThenBreaks : Prop :=
  ∀ (p : Fin 8) (s : State), s.acting → s.contactRight → s.quiet →
    (s.run.motions.get p).motion = .locked →
    let m := s.run.motions.get p
    let n := m.stall + 1
    let w := s.setup.params.motionWindow
    (w ≤ n → n < 2 * w → exec (.stallFlag p) s = .next { s with
      run := { s.run with motions := s.run.motions.set p { m with stall := n, stallFlag := true } } })
    ∧ (2 * w ≤ n → ∃ t r, exec (.stallBreak p) s = .next t ∧ OnlyBlocksActed s t ∧ LadderKept s t
        ∧ t.run.motions = s.run.motions.set p { m with
            motion := .broken, runup := none, stall := 0, stallFlag := false, referenced := false }
        ∧ RaisedIn s t (slotBreak p) (some m.value)
        ∧ (m.referenced = true → s.run.notices.length < 16 → ∃ rest, t.run.notices = s.run.notices
            ++ [{ sweep := s.port.sweep, body := .unref p .brk m.value }] ++ rest)
        ∧ t.run = drain s.env r
        ∧ (m.referenced = false → r.notices = s.run.notices)
        ∧ (∀ d, s.setup.positions.get p = some d → r.orders =
            enqueueOrder d.station .dowserClose (enqueueOrder d.station .stop s.run.orders)))

/-- From R83, R84, R97 to R99: the report with DOT that brings the dot run to K after a clear run of at least Q is
a mark, and goes to a scanned reel's MARK record at or past its arm point and not held. Short of the ordinal (and
of the backstop) the mark count goes up by one and nothing else changes. At the ordinal an ANNOUNCE record that
is the last of its list completes DONE, with a CUE notice where there is room, the cursor moving on. That the row
is a report with DOT and no advance, of which no other block has a share, is the model's choice (log 5, DESIGN
CHOICE); a run recognised anew at a K raised above it is log 33 (DEDUCED). -/
def Obligations.MarkIsCounted : Prop :=
  ∀ (p : Fin 8) (b : Cue) (ordinal : Nat) (backstop : Option Int) (s : State), s.acting → s.contactRight →
    s.quiet → MarkComes s p b → b.trigger = .mark ordinal backstop → ordinal ≤ 4 →
    let x := s.run.scans.get p
    let value := (s.run.motions.get p).value
    let run := fun (y : ScanRec) (notices : List Notice) => ({ s with
      run := { s.run with scans := s.run.scans.set p y, notices := notices } } : State)
    (x.marks + 1 < ordinal → (∀ v, backstop = some v → value < v) →
      exec (.markRecognised p) s =
        .next (run { x with dotRun := x.dotRun + 1, marks := x.marks + 1 } s.run.notices))
    ∧ (ordinal = x.marks + 1 → b.action = .announce → x.cursor + 1 = listLength s.setup p →
      s.run.notices.length < 16 →
      exec (.markRecognised p) s =
        .next (run { x with dotRun := x.dotRun + 1, marks := 0, cursor := x.cursor + 1, partnerRan := false }
          (s.run.notices ++
            [{ sweep := s.port.sweep, body := .cue p b.tag .announce .done false value }])))

/-- From R84 to R89, R97, R111: the record that the row's mark brings to its ordinal (MarkFires), by its action.
A PREROLL, CHANGE or LAMP PARTNER of a reel in no chain or whose pair is not valid, and a CAPTION in no chain,
completes VOID; then off air, or with the chain disarmed, it completes SUPPRESSED; then, but LAMP PARTNER, in
SWITCHING it is deferred with its trigger met. Otherwise it completes DONE: a PREROLL with Require clear, or
with q PRIMED, queues DOWSER OPEN and then START for q; a CHANGE with Require clear, or with q READY, in SINGLE
or DOUBLE switches to q's port with kind CHANGE, and with Require clear in another state brings nothing; a
CAPTION in SINGLE or DOUBLE switches to the fallback input with kind PLANNED; a LAMP PARTNER of a DARK lamp q,
the gate not FREE, joins the strike queue URGENT, and of one not DARK brings nothing. LAMP DOWN and TAIL STOP
complete SUPPRESSED with the chain disarmed; on air they are put under WAIT; else they complete DONE, TAIL STOP
queueing STOP and then DOWSER CLOSE, LAMP DOWN making the lamp DARK with lamp-down pending and queueing LAMP
DOWN; under StrikesSound (CountsKept) a QUEUED lamp's entry goes, and a STRIKING lamp's timer is idle and the gate in
GAP at 0, or FREE with Stagger gap 0 where no entry that waits is eligible. Nothing else changes but by the CUE
notice and the cursor. These are the model's: the deferred record's trigger stays met (log 12, DEDUCED), PRIMED and
READY are read as last published (log 31, DEDUCED), the row is a report with DOT and no advance, of which no other
block has a share (log 5, DESIGN CHOICE). -/
def Obligations.MarkedRecordActs : Prop :=
  ∀ (p : Fin 8) (b : Cue) (s : State), s.acting → s.contactRight → s.quiet → MarkFires s p b →
    let x := s.run.scans.get p
    let leaves := fun (y : ScanRec) (notices : List Notice) (r : Run) => exec (.markRecognised p) s =
      .next { s with
        run := { r with scans := s.run.scans.set p { y with dotRun := x.dotRun + 1 }, notices := notices } }
    let completes := fun (how : CueOutcome) (r : Run) => leaves x.passed (s.run.notices
      ++ [{ sweep := s.port.sweep, body := .cue p b.tag b.action how false (s.run.motions.get p).value }]) r
    let stays := fun (h : ScanHold) => leaves
      { x with marks := x.marks + 1, met := some false, hold := h } s.run.notices s.run
    let switches := fun (c : Fin 4) (i : Input) (k : SwitchKind) => ∀ d, s.setup.chains.get c = some d →
      completes .done { s.run with
        orders := enqueueOrder d.station (.select i) s.run.orders
        chains := s.run.chains.set c ((s.run.chains.get c).switched i k 0) }
    let partnered := (∃ v, b.action = .preroll v ∨ b.action = .change v) ∨ b.action = .lampPartner
    let deferred := (∃ v, b.action = .preroll v ∨ b.action = .change v) ∨ b.action = .caption
    (chainOf s.setup p = none → partnered ∨ b.action = .caption → completes .void s.run)
    ∧ (∀ c z, chainOf s.setup p = some (c, z) →
        let onFilm := (s.run.chains.get c).state = .single ∨ (s.run.chains.get c).state = .double
        let armed := (s.setup.modes.get c).armed
        (partnered → pairValid s.setup c = false → completes .void s.run)
        ∧ (partnered ∧ pairValid s.setup c = true ∨ b.action = .caption →
            (isOnAir s.setup s.run p = false ∨ armed = false → completes .suppressed s.run)
            ∧ (isOnAir s.setup s.run p = true → armed = true → deferred →
                (s.run.chains.get c).state = .switching → stays .none))
        ∧ (b.action = .caption → isOnAir s.setup s.run p = true → armed = true → onFilm →
            switches c (fallbackInput s.setup c) .planned)
        ∧ (∀ (q : Fin 8) (d : PosDef), partnerOf s.setup p = some q → chainOf s.setup q = some (c, z.other) →
            s.setup.positions.get q = some d → (s.run.chains.get c).observed = some z.input → armed = true →
            let sound := (s.run.motions.get q).motion ≠ .broken ∧ (s.run.motions.get q).silent = false
            let free := (s.run.chains.get c).state ≠ .switching
            (free → b.action = .preroll false ∨ b.action = .preroll true ∧ sound
                ∧ (s.run.lamps.get q).primed = true →
              completes .done { s.run with
                orders := enqueueOrder d.station .start (enqueueOrder d.station .dowserOpen s.run.orders) })
            ∧ (b.action = .change false ∨ b.action = .change true ∧ sound ∧ (s.run.lamps.get q).ready = true →
                onFilm → switches c z.other.input .change)
            ∧ (b.action = .change false → free → ¬ onFilm → completes .done s.run)
            ∧ (b.action = .lampPartner →
                ((s.run.lamps.get q).lamp ≠ .dark → completes .done s.run)
                ∧ ((s.run.lamps.get q).lamp = .dark → s.run.gate ≠ .free → completes .done { s.run with
                    strikeQueue := s.run.strikeQueue ++ [{ position := q, cls := .urgent }]
                    lamps := s.run.lamps.set q { s.run.lamps.get q with lamp := .queued } })))
        ∧ (b.action = .lampDown ∨ b.action = .tailStop →
            (armed = false → completes .suppressed s.run)
            ∧ (armed = true → isOnAir s.setup s.run p = true → stays .wait)))
    ∧ (∀ d, s.setup.positions.get p = some d → isOnAir s.setup s.run p = false →
        (∀ c z, chainOf s.setup p = some (c, z) → (s.setup.modes.get c).armed = true) →
        (b.action = .tailStop → completes .done { s.run with
          orders := enqueueOrder d.station .dowserClose (enqueueOrder d.station .stop s.run.orders) })
        ∧ (b.action = .lampDown →
            let l := s.run.lamps.get p
            let down : LampRec := { l with lamp := .dark, downPending := true, primed := false, ready := false }
            let darkens := fun (y : LampRec) (queue : List StrikeEntry) (gate : Gate) => completes .done { s.run with
              orders := enqueueOrder d.station .lampDown s.run.orders
              lamps := s.run.lamps.set p y, strikeQueue := queue, gate := gate }
            (partnerOf s.setup p = none ∨ l.primed = false ∧ l.ready = false →
              (l.lamp = .dark ∨ l.lamp = .lit → darkens down s.run.strikeQueue s.run.gate)
              ∧ (l.lamp = .settling → darkens { down with settle := none } s.run.strikeQueue s.run.gate))
            ∧ (StrikesSound s.run →
              (l.lamp = .queued → darkens down (s.run.strikeQueue.filter (fun y => y.position != p)) s.run.gate)
              ∧ (l.lamp = .striking →
                  0 < s.setup.params.staggerGap
                    ∨ (∀ y ∈ s.run.strikeQueue, (s.run.lamps.get y.position).downPending = true) →
                  darkens { down with strikeTimer := none } s.run.strikeQueue
                    (if s.setup.params.staggerGap = 0 then .free else .gap 0)))))

/-- From R86, R87, R90, R107, R110: a PREROLL or CHANGE with Require set that the row's mark brings to its
ordinal (MarkFires), on air in an armed chain not SWITCHING, q neither PRIMED nor READY. In SINGLE or DOUBLE, q
neither BROKEN nor SILENT: the record is held, the partner ran flag telling whether q runs, and the chain is
HOLDING with p, the kind and the hold timer at 0; a DARK lamp q, the gate not FREE, joins the strike queue
URGENT. In another state the start is not taken: the record completes HELD OUT and nothing else changes. With q
BROKEN or SILENT it completes FAULT; in SINGLE or DOUBLE CHANGE FAILED is raised and, with Fallback on, a
CHANGE, or a PREROLL past the last picture, switches to the fallback input with hold sweeps 0; with Fallback
off, and no reel of the chain past runout, the state is derived. Said with no position at two ports, which
DefinitionsKept keeps. These are the model's: this FAULT makes no strike request (log 40, DESIGN CHOICE), PRIMED and
READY are read as last published (log 31, DEDUCED), the row is a report with DOT and no advance, of which no other
block has a share (log 5, DESIGN CHOICE). -/
def Obligations.HoldsBegin : Prop :=
  ∀ (p q : Fin 8) (b : Cue) (k : HoldKind) (c : Fin 4) (z : Port) (d : ChainDef) (s : State), s.acting →
    s.contactRight → s.quiet → PortsSingle s.setup → MarkFires s p b →
    (b.action = .preroll true ∧ k = .preroll ∨ b.action = .change true ∧ k = .change) →
    chainOf s.setup p = some (c, z) → partnerOf s.setup p = some q → s.setup.chains.get c = some d →
    (s.run.chains.get c).observed = some z.input → (s.setup.modes.get c).armed = true →
    (s.run.lamps.get q).primed = false → (s.run.lamps.get q).ready = false →
    let x := s.run.scans.get p
    let was := s.run.chains.get c
    let m := s.run.motions.get q
    let onFilm := was.state = .single ∨ was.state = .double
    let failed := m.motion = .broken ∨ m.silent = true
    let runs := decide (m.motion = .runup ∨ m.motion = .locked)
    let past := fun (a : Int) (r : Fin 8) => ∃ v, (s.setup.reels.get r).lastPicture = some v
      ∧ (s.run.motions.get r).referenced = true ∧ v + a ≤ (s.run.motions.get r).value
    let scans := s.run.scans.set p { x.passed with dotRun := x.dotRun + 1 }
    let notices := fun (how : CueOutcome) => s.run.notices
      ++ [{ sweep := s.port.sweep, body := .cue p b.tag b.action how false (s.run.motions.get p).value }]
    let held : Run := { s.run with
      scans := s.run.scans.set p { x with
        dotRun := x.dotRun + 1, marks := x.marks + 1, met := some false, hold := .hold, partnerRan := runs }
      chains := s.run.chains.set c { was with hold := some (p, k), holdTimer := .running 0, state := .holding } }
    let fails := fun (orders : List OrderEntry) (y : ChainRec) =>
      ∃ t, exec (.markRecognised p) s = .next t ∧ OnlyBlocksActed s t
        ∧ RaisedIn s t (slotChangeFailed c) none
        ∧ (∀ j, j ≠ slotChangeFailed c → t.run.slots.get j = s.run.slots.get j)
        ∧ t.run = { s.run with
            slots := t.run.slots, scans := scans, notices := notices .fault, orders := orders
            chains := s.run.chains.set c y
            runoutRaised := t.run.runoutRaised, tailStopped := t.run.tailStopped }
    (¬ failed → onFilm →
      ((s.run.lamps.get q).lamp ≠ .dark → exec (.markRecognised p) s = .next { s with run := held })
      ∧ ((s.run.lamps.get q).lamp = .dark → s.run.gate ≠ .free → exec (.markRecognised p) s = .next { s with
          run := { held with
            strikeQueue := s.run.strikeQueue ++ [{ position := q, cls := .urgent }]
            lamps := s.run.lamps.set q { s.run.lamps.get q with lamp := .queued } } }))
    ∧ (¬ onFilm → was.state ≠ .switching → exec (.markRecognised p) s = .next { s with
        run := { s.run with scans := scans, notices := notices (if failed then .fault else .heldOut) } })
    ∧ (failed → onFilm →
        ((s.setup.modes.get c).fallback = true → k = .change ∨ past 1 p →
          fails (enqueueOrder d.station (.select (fallbackInput s.setup c)) s.run.orders)
            (was.switched (fallbackInput s.setup c) .fallback 0))
        ∧ ((s.setup.modes.get c).fallback = false →
            (∀ y r, portPosition s.setup c y = some r → ¬ past (s.setup.modes.get c).runoutGuard r) →
            fails s.run.orders { was with
              holdSweeps := 0
              state := if (s.setup.positions.get q).isSome = true ∧ runs = true then .double else .single }))

/-- From R52, R59 to R61, R86, R87, R91, R109, R111: the settle counter reaching Lamp settle: the lamp LIT, the
counter idle, PRIMED and READY worked afresh; no motion record changes. With no partner, with nothing to take on the
partner's reel, or with neither condition changed, nothing else changes. Where the partner q carries the picture of an
armed chain HOLDING the record at q's cursor, here the last of its list and with neither condition published before
(StrikesSound says so of a SETTLING lamp), that record completes, with its CUE notice. A PREROLL, PRIMED now
true: DONE; DOWSER OPEN and then START are queued, and the chain, no port position past runout, leaves HOLDING for
SINGLE. A CHANGE, READY now true: LATE; the chain leaves HOLDING and its changeover request switches it to this
position's port with kind CHANGE, also where the on-air position is past runout: that the request goes before the
runout evaluation of R119, which so finds the chain SWITCHING, raises nothing and works the runout flags alone, is the
model's choice (log 17, DEDUCED). Hold sweeps takes the hold timer's count. Said with no position at two ports
(DefinitionsKept keeps that). The dwell counter reaching Dwell limit, of a defined position STOPPED with lamp SETTLING
or LIT and dowser OPEN: DOWSER CLOSE queued, DWELL raised, the counter 0; nothing else changes. That the row makes the
one count that brings the expiry is the model's choice (log 4, DESIGN CHOICE). -/
def Obligations.LampCountersExpire : Prop :=
  ∀ (p : Fin 8) (n : Nat) (d : PosDef) (s : State), s.acting → s.contactRight → s.quiet →
    let l := s.run.lamps.get p
    let m := s.run.motions.get p
    (l.lamp = .settling → l.settle = some n → s.setup.params.lampSettle ≤ n + 1 →
      let primes := (s.setup.positions.get p).isSome && m.signals.getLsbD 0 && m.motion == .stopped
        && m.referenced && !m.silent
      let readies := m.motion == .locked && l.dowser == .opened && !m.silent
      let lit := s.run.lamps.set p { l with lamp := .lit, settle := none, primed := primes, ready := readies }
      ((∀ q, partnerOf s.setup p = some q → NothingToTake s q) ∨ (l.primed = primes ∧ l.ready = readies) →
        exec (.settleExpiry p) s = .next { s with run := { s.run with lamps := lit } })
      ∧ (∀ (q : Fin 8) (c : Fin 4) (z : Port) (b : Cue) (k : HoldKind) (v : Bool) (x : PosDef) (y : ChainDef),
          PortsSingle s.setup → partnerOf s.setup p = some q → chainOf s.setup p = some (c, z) →
          s.setup.positions.get p = some x → s.setup.chains.get c = some y →
          let was := s.run.chains.get c
          was.state = .holding → was.hold = some (q, k) → was.observed = some z.other.input →
          (s.setup.modes.get c).armed = true → scanned s.setup s.run q = true →
          (s.run.scans.get q).hold = .hold → cursorRecord s.setup s.run q = some (some b) →
          (s.run.scans.get q).cursor + 1 = listLength s.setup q → s.run.notices.length < 16 →
          l.primed = false → l.ready = false →
          let ended := was.unheld (s.setup.modes.get c).holdLimit
          let completed := fun (how : CueOutcome) => ({ s.run with
            lamps := lit, scans := s.run.scans.set q (s.run.scans.get q).passed
            notices := s.run.notices
              ++ [{ sweep := s.port.sweep
                    body := .cue q b.tag b.action how ((s.run.scans.get q).met == some true)
                      (s.run.motions.get q).value }] } : Run)
          (b.action = .preroll v → primes = true →
            (∀ w a, portPosition s.setup c w = some a → pastRunout s.setup s.run c a = false) →
            ∃ t, exec (.settleExpiry p) s = .next t ∧ OnlyBlocksActed s t ∧ t.run = { completed .done with
              orders := enqueueOrder x.station .start (enqueueOrder x.station .dowserOpen s.run.orders)
              chains := s.run.chains.set c (ended .single)
              runoutRaised := t.run.runoutRaised, tailStopped := t.run.tailStopped })
          ∧ (b.action = .change v → readies = true →
            ∃ t, exec (.settleExpiry p) s = .next t ∧ OnlyBlocksActed s t ∧ RunoutWorked s t c
              ∧ t.run = { completed .late with
                orders := enqueueOrder y.station (.select z.input) s.run.orders
                chains := s.run.chains.set c
                  ((ended .double).switched z.input .change (ended .double).holdSweeps)
                runoutRaised := t.run.runoutRaised, tailStopped := t.run.tailStopped }))
      ∧ (∃ t, exec (.settleExpiry p) s = .next t ∧ OnlyBlocksActed s t ∧ LadderKept s t
          ∧ t.run.motions = s.run.motions))
    ∧ (s.setup.positions.get p = some d → l.lamp = .lit ∨ l.lamp = .settling → l.dowser = .opened →
      m.motion = .stopped → s.setup.params.dwellLimit ≤ l.dwell + 1 →
      ∃ t, exec (.dwellExpiry p) s = .next t ∧ OnlyBlocksActed s t
        ∧ t.run = { s.run with
            orders := enqueueOrder d.station .dowserClose s.run.orders
            lamps := s.run.lamps.set p { l with dwell := 0 }
            slots := t.run.slots }
        ∧ RaisedIn s t (slotDwell p) (some m.value)
        ∧ ∀ k, k ≠ slotDwell p → t.run.slots.get k = s.run.slots.get k)

/-- R55, R56: the strike timer reaching Strike limit, in a state StrikesSound (which every step keeps, CountsKept):
STRIKE raised, the lamp DARK with its timer idle, and the gate in GAP at 0, or FREE with Stagger gap 0 where no
entry waits. A position that is not its chain's on-air position has lamp-down pending set and LAMP DOWN queued. For
the on-air position a LAMP UP that still waits is withdrawn, no LAMP DOWN is queued and lamp-down pending stays.
Nothing else changes. That the row makes the one count that brings the expiry is the model's choice (log 4, DESIGN
CHOICE). -/
def Obligations.StrikeExpiryDarkens : Prop :=
  ∀ (p : Fin 8) (n : Nat) (d : PosDef) (s : State), s.acting → s.quiet → StrikesSound s.run →
    let l := s.run.lamps.get p
    l.lamp = .striking → l.strikeTimer = some n → s.setup.params.strikeLimit ≤ n + 1 →
    s.setup.positions.get p = some d → 0 < s.setup.params.staggerGap ∨ s.run.strikeQueue = [] →
    let ends := fun (pending : Bool) (orders : List OrderEntry) =>
      ∃ t, exec (.strikeExpiry p) s = .next t ∧ OnlyBlocksActed s t
        ∧ t.run = { s.run with
            slots := t.run.slots, orders := orders
            gate := if s.setup.params.staggerGap = 0 then .free else .gap 0
            lamps := s.run.lamps.set p { l with lamp := .dark, strikeTimer := none, downPending := pending } }
        ∧ RaisedIn s t (slotStrike p) (some (s.run.motions.get p).value)
        ∧ ∀ k, k ≠ slotStrike p → t.run.slots.get k = s.run.slots.get k
    (isOnAir s.setup s.run p = false → ends true (enqueueOrder d.station .lampDown s.run.orders))
    ∧ (isOnAir s.setup s.run p = true → ends l.downPending
        (s.run.orders.filter (fun y => !(y.station == d.station && y.order == .lampUp))))

/-- From R54, R56: the gap counter reaching Stagger gap frees the gate, which stays FREE, with nothing else changed,
where no eligible entry waits. A FREE gate grants the oldest eligible URGENT entry, else the oldest eligible
ORDINARY one: the gate is STRIKING that position, its entry has left the queue, its lamp is STRIKING with the
strike timer at 0, and LAMP UP is queued; nothing else changes. Said of a position with no partner, and of any
position in a state StrikesSound (which every step keeps, CountsKept), or with neither PRIMED nor READY published.
That the gap's row makes the one count that brings its end is the model's choice (log 4, DESIGN CHOICE). -/
def Obligations.GateFreedAndGranted : Prop :=
  ∀ (n : Nat) (p : Fin 8) (d : PosDef) (before after : List StrikeEntry) (cls : StrikeClass) (s : State),
    s.acting → s.contactRight → s.quiet →
    (s.run.gate = .gap n → s.setup.params.staggerGap ≤ n + 1 →
      (∀ x ∈ s.run.strikeQueue, (s.run.lamps.get x.position).downPending = true) →
      exec .staggerGapExpiry s = .next { s with run := { s.run with gate := .free } })
    ∧ (s.run.gate = .free → s.run.strikeQueue = before ++ { position := p, cls := cls } :: after →
      (s.run.lamps.get p).downPending = false →
      (∀ x ∈ before, (s.run.lamps.get x.position).downPending = true ∨ cls = .urgent ∧ x.cls = .ordinary) →
      (cls = .ordinary → ∀ x ∈ after, (s.run.lamps.get x.position).downPending = true ∨ x.cls = .ordinary) →
      s.setup.positions.get p = some d →
      partnerOf s.setup p = none ∨ StrikesSound s.run
        ∨ ((s.run.lamps.get p).primed = false ∧ (s.run.lamps.get p).ready = false) →
      exec .strikeGrant s = .next { s with
        run := { s.run with
          gate := .striking p
          strikeQueue := s.run.strikeQueue.filter (fun x => x.position != p)
          lamps := s.run.lamps.set p { s.run.lamps.get p with
            lamp := .striking, strikeTimer := some 0, primed := false, ready := false }
          orders := enqueueOrder d.station .lampUp s.run.orders } })

/-- From R83, R92, R108 to R111, R114: the hold timer reaching the hold limit: the held record of the reel completes
HELD OUT, with a CUE notice where there is room, the cursor has passed it, and CHANGE FAILED of the chain is raised.
A held CHANGE of the on-air position, with Fallback on, leaves the chain SWITCHING to its fallback input with kind
FALLBACK and the hold limit as hold sweeps. Where the record was the last of its list the chain is not HOLDING and
holds nothing. The switch timer reaching the switch limit raises SWITCH FAILED of the chain; a chain whose observed
selection is the caption or black is then DARK, with the target, from input, SELECT and timer cleared. Neither
changes a motion record or an observed selection. From R104, R111, R117, R118, with no position at two ports
(DefinitionsKept keeps that), no reel of the chain with anything to take and none past runout: a SELECT still QUEUED
leaves the order queue; with the observed selection absent the chain is UNKNOWN; else the state is the one it
derives, and where a loss then stands and Fallback is on, the chain answers as R117 gives, a NEXT whose lamp is DARK,
the gate not FREE, joining the strike queue URGENT. Nothing else changes, but the runout flags. These are the model's:
READY is read as last published (log 31, DEDUCED); the row makes the one count that brings the expiry (log 4, DESIGN
CHOICE). -/
def Obligations.ChainTimersExpire : Prop :=
  ∀ (c : Fin 4) (n : Nat) (s : State), s.acting → s.quiet →
    let before := s.run.chains.get c
    (∀ (p q : Fin 8) (k : HoldKind) (x : Port) (b : Cue),
      before.state = .holding → before.hold = some (p, k) →
      before.holdTimer = .running n → (s.setup.modes.get c).holdLimit ≤ n + 1 →
      chainOf s.setup p = some (c, x) → partnerOf s.setup p = some q → scanned s.setup s.run p = true →
      (s.run.scans.get p).hold = .hold → cursorRecord s.setup s.run p = some (some b) →
      ∃ t, exec (.holdExpiry c) s = .next t ∧ OnlyBlocksActed s t ∧ LadderKept s t
        ∧ t.run.motions = s.run.motions
        ∧ (∀ d, (t.run.chains.get d).observed = (s.run.chains.get d).observed)
        ∧ RaisedIn s t (slotChangeFailed c) none
        ∧ (s.run.scans.get p).cursor < (t.run.scans.get p).cursor
        ∧ (s.run.notices.length < 16 → ∃ rest, t.run.notices = s.run.notices ++
            [{ sweep := s.port.sweep
               body := .cue p b.tag b.action .heldOut ((s.run.scans.get p).met == some true)
                 (s.run.motions.get p).value }] ++ rest)
        ∧ (isOnAir s.setup s.run p = true → k = .change → (s.setup.modes.get c).fallback = true →
            t.run.chains.get c = { before.switched (fallbackInput s.setup c) .fallback
              (s.setup.modes.get c).holdLimit with hold := none, holdTimer := .idle })
        ∧ (isOnAir s.setup s.run p = true → (s.run.scans.get p).cursor + 1 = listLength s.setup p →
            (t.run.chains.get c).state ≠ .holding ∧ (t.run.chains.get c).hold = none
              ∧ (t.run.chains.get c).holdTimer = .idle))
    ∧ (before.state = .switching → before.switchTimer = some n →
      (s.setup.modes.get c).switchLimit ≤ n + 1 →
      ∃ t, exec (.switchExpiry c) s = .next t ∧ OnlyBlocksActed s t ∧ LadderKept s t
        ∧ t.run.motions = s.run.motions
        ∧ (∀ d, (t.run.chains.get d).observed = (s.run.chains.get d).observed)
        ∧ RaisedIn s t (slotSwitchFailed c) none
        ∧ s.run.notices <+: t.run.notices
        ∧ (before.observed = some .caption ∨ before.observed = some .black →
            t.run.chains.get c = before.unswitched before.observed .dark)
        ∧ (∀ d, PortsSingle s.setup → s.setup.chains.get c = some d →
            (∀ z q, portPosition s.setup c z = some q →
              NothingToTake s q ∧ pastRunout s.setup s.run c q = false) →
            let lost := fun z p => before.observed = some (Port.input z) ∧ portPosition s.setup c z = some p
              ∧ (s.setup.positions.get p).isSome = true ∧ LossStands s p
            let orders := if before.select = .queued
              then s.run.orders.filter (fun y => !(y.holds d.station .select))
              else s.run.orders
            let leaves := fun (y : ChainRec) (orders : List OrderEntry) (queue : List StrikeEntry)
                (lamps : Vector LampRec 8) =>
              t.run = { s.run with
                slots := t.run.slots, chains := s.run.chains.set c y, orders := orders, strikeQueue := queue
                lamps := lamps, runoutRaised := t.run.runoutRaised, tailStopped := t.run.tailStopped }
              ∧ ∀ j, j ≠ slotSwitchFailed c → t.run.slots.get j = s.run.slots.get j
            (before.observed = none →
              leaves (before.unswitched none .unknown) orders s.run.strikeQueue s.run.lamps)
            ∧ (∀ i, before.observed = some i →
                let ended := before.unswitched (some i) (StateFrom s c i)
                ((s.setup.modes.get c).fallback = false ∨ (∀ z p, ¬ lost z p) →
                  leaves ended orders s.run.strikeQueue s.run.lamps)
                ∧ (∀ z p a k, (s.setup.modes.get c).fallback = true → lost z p → LossAnswer s c z p a k →
                    (k = .change ∨ (∀ q, IsNext s p q → (s.run.lamps.get q).lamp ≠ .dark) →
                      leaves (ended.switched a k 0) (enqueueOrder d.station (.select a) orders)
                        s.run.strikeQueue s.run.lamps)
                    ∧ (∀ q, k = .fallback → IsNext s p q → (s.run.lamps.get q).lamp = .dark →
                        s.run.gate ≠ .free →
                        leaves (ended.switched a k 0) (enqueueOrder d.station (.select a) orders)
                          (s.run.strikeQueue ++ [{ position := q, cls := .urgent }])
                          (s.run.lamps.set q { s.run.lamps.get q with lamp := .queued }))))))

/-- R140, R141, R143 to R145: a report that brings an active rule's counter for a covered position to its persistence
fires it: RULE of the position is raised, and where the slot stood clear it captures the lowest-numbered fired rule's
index and severity; no motion record changes. Each rule the report fires acts, in rule order, 0 first, whether or not
the class is on: NONE not at all; DOWSER queues DOWSER CLOSE for the position's station; STOP, and LOSS of a position
that is not on air, queue STOP and then DOWSER CLOSE. With no LOSS rule fired of a position that carries its chain's
picture (OnAirLossAnswered speaks of one) nothing else changes but the counters. That the row carries the report's
signals, is judged by the motion state as it stands and moves nothing but the Rule Unit's share is the model's choice
(log 5, DESIGN CHOICE). -/
def Obligations.RuleFires : Prop :=
  ∀ (p : Fin 8) (w : Byte) (i : Fin 16) (rest : List (Fin 16)) (d : PosDef) (s : State), s.acting → s.quiet →
    s.setup.positions.get p = some d →
    let fires := fun j : Fin 16 =>
      let y := s.setup.rules.get j
      y.active = true ∧ y.positions.getLsbD p.val = true ∧ w &&& y.mask = y.values &&& y.mask
        ∧ (y.qualifier = .moving →
            (s.run.motions.get p).motion = .runup ∨ (s.run.motions.get p).motion = .locked)
        ∧ (y.qualifier = .stopped → (s.run.motions.get p).motion = .stopped)
        ∧ ((s.run.counters.get j).get p) + 1 = y.persistence
    (∀ j, j ∈ i :: rest ↔ fires j) → (i :: rest).Pairwise (· < ·) →
    let acts := fun (orders : List OrderEntry) (j : Fin 16) =>
      match (s.setup.rules.get j).action with
      | .none => orders
      | .dowser => enqueueOrder d.station .dowserClose orders
      | .stop | .loss => enqueueOrder d.station .dowserClose (enqueueOrder d.station .stop orders)
    ∃ t, exec (.ruleFire p w) s = .next t ∧ OnlyBlocksActed s t ∧ LadderKept s t
      ∧ t.run.motions = s.run.motions
      ∧ RaisedIn s t (slotRule p) (some (s.run.motions.get p).value)
      ∧ (s.setup.enables.get (classOf (slotRule p)) = true →
          (s.run.slots.get (slotRule p)).pending = false →
          (s.run.slots.get (slotRule p)).underService = false →
          (t.run.slots.get (slotRule p)).rule = some (i, (s.setup.rules.get i).severity))
      ∧ ((∀ j ∈ i :: rest, (s.setup.rules.get j).action = .loss → isOnAir s.setup s.run p = false) →
          t.run = { s.run with
            slots := t.run.slots, counters := t.run.counters, orders := (i :: rest).foldl acts s.run.orders }
          ∧ ∀ j, j ≠ slotRule p → t.run.slots.get j = s.run.slots.get j)

/-- From R93, R109, R111, R117, R119, R143 to R145: one rule with action LOSS that the row fires for the
position that carries its chain's picture, on a chain no reel of which is scanned, or whose held record, the
last of its list, completes FAULT with its CUE notice (R93). RULE is raised. The chain answers by its state at
the loss: in SWITCHING, DARK, FALLBACK and UNKNOWN not at all; in HOLDING the hold is ended first, hold sweeps
taking the timer's count, and the state derived; then, or in SINGLE or DOUBLE, with Fallback on, it switches to
a READY NEXT's port with kind CHANGE, else to the fallback input with kind FALLBACK, a NEXT whose lamp is DARK,
the gate not FREE, joining the strike queue URGENT; with Fallback off it does no more. A chain that comes from HOLDING
then has its runout evaluated (R119), which works the flags alone: said with Fallback off where no port is past
runout, and with a fallback switch where the other port's position, if past runout, stands or has its tail stopped
flag set (R121). Said with no position
at two ports, which DefinitionsKept keeps. These are the model's: the chain takes the loss at once (log 41, DESIGN
CHOICE); it reacts before the walks go on (log 15, DEDUCED); hold sweeps is kept through the switch that follows the
hold (log 16, DEDUCED); the row moves nothing but the Rule Unit's share of its report (log 5, DESIGN CHOICE); READY
is read as last published (log 31, DEDUCED). -/
def Obligations.OnAirLossAnswered : Prop :=
  ∀ (p : Fin 8) (w : Byte) (i : Fin 16) (c : Fin 4) (z : Port) (d : ChainDef) (scans : Vector ScanRec 8)
    (notices : List Notice) (s : State), s.acting → s.quiet → PortsSingle s.setup →
    (s.setup.positions.get p).isSome = true →
    let fires := fun j : Fin 16 =>
      let y := s.setup.rules.get j
      y.active = true ∧ y.positions.getLsbD p.val = true ∧ w &&& y.mask = y.values &&& y.mask
        ∧ (y.qualifier = .moving →
            (s.run.motions.get p).motion = .runup ∨ (s.run.motions.get p).motion = .locked)
        ∧ (y.qualifier = .stopped → (s.run.motions.get p).motion = .stopped)
        ∧ ((s.run.counters.get j).get p) + 1 = y.persistence
    fires i → (∀ j, fires j → j = i) → (s.setup.rules.get i).action = .loss →
    chainOf s.setup p = some (c, z) → s.setup.chains.get c = some d →
    let was := s.run.chains.get c
    was.observed = some z.input →
    (∀ q, portPosition s.setup c z.other = some q → scanned s.setup s.run q = false) →
    (scanned s.setup s.run p = false ∧ scans = s.run.scans ∧ notices = s.run.notices
      ∨ scanned s.setup s.run p = true ∧ was.state = .holding ∧ (s.run.scans.get p).hold = .hold
        ∧ (∃ q, partnerOf s.setup p = some q) ∧ s.run.notices.length < 16
        ∧ (s.run.scans.get p).cursor + 1 = listLength s.setup p
        ∧ scans = s.run.scans.set p (s.run.scans.get p).passed
        ∧ ∃ b, cursorRecord s.setup s.run p = some (some b) ∧ notices = s.run.notices
          ++ [{ sweep := s.port.sweep
                body := .cue p b.tag b.action .fault ((s.run.scans.get p).met == some true)
                  (s.run.motions.get p).value }]) →
    let onFilm := was.state = .single ∨ was.state = .double
    let count := match was.holdTimer with
      | .running n => n
      | .expired => (s.setup.modes.get c).holdLimit
      | .idle => 0
    let ended := if was.state = .holding then
        { was with
          hold := none, holdTimer := .idle, holdSweeps := count
          state := if ∃ q, portPosition s.setup c z.other = some q ∧ (s.setup.positions.get q).isSome = true
              ∧ ((s.run.motions.get q).motion = .runup ∨ (s.run.motions.get q).motion = .locked)
            then .double else .single }
      else was
    let kept := if was.state = .holding then count else 0
    let raised := fun t : State => OnlyBlocksActed s t
      ∧ RaisedIn s t (slotRule p) (some (s.run.motions.get p).value)
      ∧ ∀ j, j ≠ slotRule p → t.run.slots.get j = s.run.slots.get j
    let answers := fun (y : ChainRec) (orders : List OrderEntry) (queue : List StrikeEntry)
        (lamps : Vector LampRec 8) =>
      ∃ t, exec (.ruleFire p w) s = .next t ∧ raised t
        ∧ (was.state = .holding → RunoutWorked s t c)
        ∧ (was.state ≠ .holding →
            t.run.runoutRaised = s.run.runoutRaised ∧ t.run.tailStopped = s.run.tailStopped)
        ∧ t.run = { s.run with
            slots := t.run.slots, counters := t.run.counters, chains := s.run.chains.set c y, orders := orders
            strikeQueue := queue, lamps := lamps, scans := scans, notices := notices
            runoutRaised := t.run.runoutRaised, tailStopped := t.run.tailStopped }
    let settles := fun (y : ChainRec) => ∃ t, exec (.ruleFire p w) s = .next t ∧ raised t
      ∧ t.run = { s.run with
          slots := t.run.slots, counters := t.run.counters, chains := s.run.chains.set c y
          scans := scans, notices := notices
          runoutRaised := t.run.runoutRaised, tailStopped := t.run.tailStopped }
    let select := fun (x : Input) => enqueueOrder d.station (.select x) s.run.orders
    let back := fallbackInput s.setup c
    let quietTail := was.state = .holding → ∀ q, portPosition s.setup c z.other = some q →
      pastRunout s.setup s.run c q = true → (s.run.motions.get q).motion.running = false
        ∨ s.run.tailStopped.get q = true
    (¬ onFilm → was.state ≠ .holding → answers was s.run.orders s.run.strikeQueue s.run.lamps)
    ∧ (onFilm ∨ was.state = .holding →
        ((s.setup.modes.get c).fallback = false →
          (onFilm → answers was s.run.orders s.run.strikeQueue s.run.lamps)
          ∧ (was.state = .holding →
              (∀ y r, portPosition s.setup c y = some r → pastRunout s.setup s.run c r = false) →
              settles ended))
        ∧ ((s.setup.modes.get c).fallback = true →
            (∀ q, IsNext s p q → (s.run.lamps.get q).ready = true →
              answers (ended.switched z.other.input .change kept) (select z.other.input) s.run.strikeQueue
                s.run.lamps)
            ∧ (∀ q, quietTail → IsNext s p q → (s.run.lamps.get q).ready = false → (s.run.lamps.get q).lamp ≠ .dark →
              answers (ended.switched back .fallback kept) (select back) s.run.strikeQueue s.run.lamps)
            ∧ (∀ q, quietTail → IsNext s p q → (s.run.lamps.get q).ready = false → (s.run.lamps.get q).lamp = .dark →
              s.run.gate ≠ .free →
              answers (ended.switched back .fallback kept) (select back)
                (s.run.strikeQueue ++ [{ position := q, cls := .urgent }])
                (s.run.lamps.set q { s.run.lamps.get q with lamp := .queued }))
            ∧ (quietTail → (∀ q, portPosition s.setup c z.other = some q → roleOf s.setup s.run q ≠ .next) →
              answers (ended.switched back .fallback kept) (select back) s.run.strikeQueue s.run.lamps)))
end

