-- ==== Sys2Proof/Laws/State.lean ====
section
/-! SUPPORT. What each update of the run-time state leaves alone, field by field, and what a record reads
as after it. -/

namespace Sys2Proof.Machine

/-- Reading an entry of a table after one entry is written. -/
@[simp] theorem get_set_fin {α : Type} {n : Nat} (v : Vector α n) (p q : Fin n) (x : α) :
    (v.set p x).get q = if p = q then x else v.get q := by
  change (v.set p x)[q.val] = if p = q then x else v[q.val]
  rw [Vector.getElem_set]
  by_cases h : p = q
  · simp [h]
  · rw [if_neg h, if_neg (fun e => h (Fin.ext e))]

section modMotion
variable (p : Fin 8) (f : MotionRec → MotionRec) (r : Run)

@[simp] theorem Run.modMotion_lamps : (r.modMotion p f).lamps = r.lamps := rfl
@[simp] theorem Run.modMotion_strikeQueue : (r.modMotion p f).strikeQueue = r.strikeQueue := rfl
@[simp] theorem Run.modMotion_gate : (r.modMotion p f).gate = r.gate := rfl
@[simp] theorem Run.modMotion_scans : (r.modMotion p f).scans = r.scans := rfl
@[simp] theorem Run.modMotion_chains : (r.modMotion p f).chains = r.chains := rfl
@[simp] theorem Run.modMotion_runoutRaised : (r.modMotion p f).runoutRaised = r.runoutRaised := rfl
@[simp] theorem Run.modMotion_tailStopped : (r.modMotion p f).tailStopped = r.tailStopped := rfl
@[simp] theorem Run.modMotion_roles : (r.modMotion p f).roles = r.roles := rfl
@[simp] theorem Run.modMotion_onAir : (r.modMotion p f).onAir = r.onAir := rfl
@[simp] theorem Run.modMotion_orders : (r.modMotion p f).orders = r.orders := rfl
@[simp] theorem Run.modMotion_counters : (r.modMotion p f).counters = r.counters := rfl
@[simp] theorem Run.modMotion_slots : (r.modMotion p f).slots = r.slots := rfl
@[simp] theorem Run.modMotion_stack : (r.modMotion p f).stack = r.stack := rfl
@[simp] theorem Run.modMotion_notices : (r.modMotion p f).notices = r.notices := rfl
@[simp] theorem Run.modMotion_handoffs : (r.modMotion p f).handoffs = r.handoffs := rfl
@[simp] theorem Run.modMotion_schedule : (r.modMotion p f).schedule = r.schedule := rfl
@[simp] theorem Run.modMotion_choices : (r.modMotion p f).choices = r.choices := rfl
@[simp] theorem Run.modMotion_get (q : Fin 8) :
    (r.modMotion p f).motions.get q = if p = q then f (r.motions.get p) else r.motions.get q := by
  simp [Run.modMotion]

end modMotion

section modLamp
variable (p : Fin 8) (f : LampRec → LampRec) (r : Run)

@[simp] theorem Run.modLamp_motions : (r.modLamp p f).motions = r.motions := rfl
@[simp] theorem Run.modLamp_strikeQueue : (r.modLamp p f).strikeQueue = r.strikeQueue := rfl
@[simp] theorem Run.modLamp_gate : (r.modLamp p f).gate = r.gate := rfl
@[simp] theorem Run.modLamp_scans : (r.modLamp p f).scans = r.scans := rfl
@[simp] theorem Run.modLamp_chains : (r.modLamp p f).chains = r.chains := rfl
@[simp] theorem Run.modLamp_runoutRaised : (r.modLamp p f).runoutRaised = r.runoutRaised := rfl
@[simp] theorem Run.modLamp_tailStopped : (r.modLamp p f).tailStopped = r.tailStopped := rfl
@[simp] theorem Run.modLamp_roles : (r.modLamp p f).roles = r.roles := rfl
@[simp] theorem Run.modLamp_onAir : (r.modLamp p f).onAir = r.onAir := rfl
@[simp] theorem Run.modLamp_orders : (r.modLamp p f).orders = r.orders := rfl
@[simp] theorem Run.modLamp_counters : (r.modLamp p f).counters = r.counters := rfl
@[simp] theorem Run.modLamp_slots : (r.modLamp p f).slots = r.slots := rfl
@[simp] theorem Run.modLamp_stack : (r.modLamp p f).stack = r.stack := rfl
@[simp] theorem Run.modLamp_notices : (r.modLamp p f).notices = r.notices := rfl
@[simp] theorem Run.modLamp_handoffs : (r.modLamp p f).handoffs = r.handoffs := rfl
@[simp] theorem Run.modLamp_schedule : (r.modLamp p f).schedule = r.schedule := rfl
@[simp] theorem Run.modLamp_choices : (r.modLamp p f).choices = r.choices := rfl
@[simp] theorem Run.modLamp_get (q : Fin 8) :
    (r.modLamp p f).lamps.get q = if p = q then f (r.lamps.get p) else r.lamps.get q := by
  simp [Run.modLamp]

end modLamp

section modScan
variable (p : Fin 8) (f : ScanRec → ScanRec) (r : Run)

@[simp] theorem Run.modScan_motions : (r.modScan p f).motions = r.motions := rfl
@[simp] theorem Run.modScan_lamps : (r.modScan p f).lamps = r.lamps := rfl
@[simp] theorem Run.modScan_strikeQueue : (r.modScan p f).strikeQueue = r.strikeQueue := rfl
@[simp] theorem Run.modScan_gate : (r.modScan p f).gate = r.gate := rfl
@[simp] theorem Run.modScan_chains : (r.modScan p f).chains = r.chains := rfl
@[simp] theorem Run.modScan_runoutRaised : (r.modScan p f).runoutRaised = r.runoutRaised := rfl
@[simp] theorem Run.modScan_tailStopped : (r.modScan p f).tailStopped = r.tailStopped := rfl
@[simp] theorem Run.modScan_roles : (r.modScan p f).roles = r.roles := rfl
@[simp] theorem Run.modScan_onAir : (r.modScan p f).onAir = r.onAir := rfl
@[simp] theorem Run.modScan_orders : (r.modScan p f).orders = r.orders := rfl
@[simp] theorem Run.modScan_counters : (r.modScan p f).counters = r.counters := rfl
@[simp] theorem Run.modScan_slots : (r.modScan p f).slots = r.slots := rfl
@[simp] theorem Run.modScan_stack : (r.modScan p f).stack = r.stack := rfl
@[simp] theorem Run.modScan_notices : (r.modScan p f).notices = r.notices := rfl
@[simp] theorem Run.modScan_handoffs : (r.modScan p f).handoffs = r.handoffs := rfl
@[simp] theorem Run.modScan_schedule : (r.modScan p f).schedule = r.schedule := rfl
@[simp] theorem Run.modScan_choices : (r.modScan p f).choices = r.choices := rfl
@[simp] theorem Run.modScan_get (q : Fin 8) :
    (r.modScan p f).scans.get q = if p = q then f (r.scans.get p) else r.scans.get q := by
  simp [Run.modScan]

end modScan

section modChain
variable (c : Fin 4) (f : ChainRec → ChainRec) (r : Run)

@[simp] theorem Run.modChain_motions : (r.modChain c f).motions = r.motions := rfl
@[simp] theorem Run.modChain_lamps : (r.modChain c f).lamps = r.lamps := rfl
@[simp] theorem Run.modChain_strikeQueue : (r.modChain c f).strikeQueue = r.strikeQueue := rfl
@[simp] theorem Run.modChain_gate : (r.modChain c f).gate = r.gate := rfl
@[simp] theorem Run.modChain_scans : (r.modChain c f).scans = r.scans := rfl
@[simp] theorem Run.modChain_runoutRaised : (r.modChain c f).runoutRaised = r.runoutRaised := rfl
@[simp] theorem Run.modChain_tailStopped : (r.modChain c f).tailStopped = r.tailStopped := rfl
@[simp] theorem Run.modChain_roles : (r.modChain c f).roles = r.roles := rfl
@[simp] theorem Run.modChain_onAir : (r.modChain c f).onAir = r.onAir := rfl
@[simp] theorem Run.modChain_orders : (r.modChain c f).orders = r.orders := rfl
@[simp] theorem Run.modChain_counters : (r.modChain c f).counters = r.counters := rfl
@[simp] theorem Run.modChain_slots : (r.modChain c f).slots = r.slots := rfl
@[simp] theorem Run.modChain_stack : (r.modChain c f).stack = r.stack := rfl
@[simp] theorem Run.modChain_notices : (r.modChain c f).notices = r.notices := rfl
@[simp] theorem Run.modChain_handoffs : (r.modChain c f).handoffs = r.handoffs := rfl
@[simp] theorem Run.modChain_schedule : (r.modChain c f).schedule = r.schedule := rfl
@[simp] theorem Run.modChain_choices : (r.modChain c f).choices = r.choices := rfl
@[simp] theorem Run.modChain_get (q : Fin 4) :
    (r.modChain c f).chains.get q = if c = q then f (r.chains.get c) else r.chains.get q := by
  simp [Run.modChain]

end modChain

section modSlot
variable (k : Fin 82) (f : Slot → Slot) (r : Run)

@[simp] theorem Run.modSlot_motions : (r.modSlot k f).motions = r.motions := rfl
@[simp] theorem Run.modSlot_lamps : (r.modSlot k f).lamps = r.lamps := rfl
@[simp] theorem Run.modSlot_strikeQueue : (r.modSlot k f).strikeQueue = r.strikeQueue := rfl
@[simp] theorem Run.modSlot_gate : (r.modSlot k f).gate = r.gate := rfl
@[simp] theorem Run.modSlot_scans : (r.modSlot k f).scans = r.scans := rfl
@[simp] theorem Run.modSlot_chains : (r.modSlot k f).chains = r.chains := rfl
@[simp] theorem Run.modSlot_runoutRaised : (r.modSlot k f).runoutRaised = r.runoutRaised := rfl
@[simp] theorem Run.modSlot_tailStopped : (r.modSlot k f).tailStopped = r.tailStopped := rfl
@[simp] theorem Run.modSlot_roles : (r.modSlot k f).roles = r.roles := rfl
@[simp] theorem Run.modSlot_onAir : (r.modSlot k f).onAir = r.onAir := rfl
@[simp] theorem Run.modSlot_orders : (r.modSlot k f).orders = r.orders := rfl
@[simp] theorem Run.modSlot_counters : (r.modSlot k f).counters = r.counters := rfl
@[simp] theorem Run.modSlot_stack : (r.modSlot k f).stack = r.stack := rfl
@[simp] theorem Run.modSlot_notices : (r.modSlot k f).notices = r.notices := rfl
@[simp] theorem Run.modSlot_handoffs : (r.modSlot k f).handoffs = r.handoffs := rfl
@[simp] theorem Run.modSlot_schedule : (r.modSlot k f).schedule = r.schedule := rfl
@[simp] theorem Run.modSlot_choices : (r.modSlot k f).choices = r.choices := rfl
@[simp] theorem Run.modSlot_get (q : Fin 82) :
    (r.modSlot k f).slots.get q = if k = q then f (r.slots.get k) else r.slots.get q := by
  simp [Run.modSlot]

end modSlot

section setGate
variable (g : Gate) (r : Run)

@[simp] theorem Run.setGate_motions : (r.setGate g).motions = r.motions := rfl
@[simp] theorem Run.setGate_lamps : (r.setGate g).lamps = r.lamps := rfl
@[simp] theorem Run.setGate_strikeQueue : (r.setGate g).strikeQueue = r.strikeQueue := rfl
@[simp] theorem Run.setGate_scans : (r.setGate g).scans = r.scans := rfl
@[simp] theorem Run.setGate_chains : (r.setGate g).chains = r.chains := rfl
@[simp] theorem Run.setGate_runoutRaised : (r.setGate g).runoutRaised = r.runoutRaised := rfl
@[simp] theorem Run.setGate_tailStopped : (r.setGate g).tailStopped = r.tailStopped := rfl
@[simp] theorem Run.setGate_roles : (r.setGate g).roles = r.roles := rfl
@[simp] theorem Run.setGate_onAir : (r.setGate g).onAir = r.onAir := rfl
@[simp] theorem Run.setGate_orders : (r.setGate g).orders = r.orders := rfl
@[simp] theorem Run.setGate_counters : (r.setGate g).counters = r.counters := rfl
@[simp] theorem Run.setGate_slots : (r.setGate g).slots = r.slots := rfl
@[simp] theorem Run.setGate_stack : (r.setGate g).stack = r.stack := rfl
@[simp] theorem Run.setGate_notices : (r.setGate g).notices = r.notices := rfl
@[simp] theorem Run.setGate_handoffs : (r.setGate g).handoffs = r.handoffs := rfl
@[simp] theorem Run.setGate_schedule : (r.setGate g).schedule = r.schedule := rfl
@[simp] theorem Run.setGate_choices : (r.setGate g).choices = r.choices := rfl

end setGate

section setRunoutRaised
variable (p : Fin 8) (b : Bool) (r : Run)

@[simp] theorem Run.setRunoutRaised_motions : (r.setRunoutRaised p b).motions = r.motions := rfl
@[simp] theorem Run.setRunoutRaised_lamps : (r.setRunoutRaised p b).lamps = r.lamps := rfl
@[simp] theorem Run.setRunoutRaised_strikeQueue : (r.setRunoutRaised p b).strikeQueue = r.strikeQueue := rfl
@[simp] theorem Run.setRunoutRaised_gate : (r.setRunoutRaised p b).gate = r.gate := rfl
@[simp] theorem Run.setRunoutRaised_scans : (r.setRunoutRaised p b).scans = r.scans := rfl
@[simp] theorem Run.setRunoutRaised_chains : (r.setRunoutRaised p b).chains = r.chains := rfl
@[simp] theorem Run.setRunoutRaised_tailStopped : (r.setRunoutRaised p b).tailStopped = r.tailStopped := rfl
@[simp] theorem Run.setRunoutRaised_roles : (r.setRunoutRaised p b).roles = r.roles := rfl
@[simp] theorem Run.setRunoutRaised_onAir : (r.setRunoutRaised p b).onAir = r.onAir := rfl
@[simp] theorem Run.setRunoutRaised_orders : (r.setRunoutRaised p b).orders = r.orders := rfl
@[simp] theorem Run.setRunoutRaised_counters : (r.setRunoutRaised p b).counters = r.counters := rfl
@[simp] theorem Run.setRunoutRaised_slots : (r.setRunoutRaised p b).slots = r.slots := rfl
@[simp] theorem Run.setRunoutRaised_stack : (r.setRunoutRaised p b).stack = r.stack := rfl
@[simp] theorem Run.setRunoutRaised_notices : (r.setRunoutRaised p b).notices = r.notices := rfl
@[simp] theorem Run.setRunoutRaised_handoffs : (r.setRunoutRaised p b).handoffs = r.handoffs := rfl
@[simp] theorem Run.setRunoutRaised_schedule : (r.setRunoutRaised p b).schedule = r.schedule := rfl
@[simp] theorem Run.setRunoutRaised_choices : (r.setRunoutRaised p b).choices = r.choices := rfl

end setRunoutRaised

section setTailStopped
variable (p : Fin 8) (b : Bool) (r : Run)

@[simp] theorem Run.setTailStopped_motions : (r.setTailStopped p b).motions = r.motions := rfl
@[simp] theorem Run.setTailStopped_lamps : (r.setTailStopped p b).lamps = r.lamps := rfl
@[simp] theorem Run.setTailStopped_strikeQueue : (r.setTailStopped p b).strikeQueue = r.strikeQueue := rfl
@[simp] theorem Run.setTailStopped_gate : (r.setTailStopped p b).gate = r.gate := rfl
@[simp] theorem Run.setTailStopped_scans : (r.setTailStopped p b).scans = r.scans := rfl
@[simp] theorem Run.setTailStopped_chains : (r.setTailStopped p b).chains = r.chains := rfl
@[simp] theorem Run.setTailStopped_runoutRaised : (r.setTailStopped p b).runoutRaised = r.runoutRaised := rfl
@[simp] theorem Run.setTailStopped_roles : (r.setTailStopped p b).roles = r.roles := rfl
@[simp] theorem Run.setTailStopped_onAir : (r.setTailStopped p b).onAir = r.onAir := rfl
@[simp] theorem Run.setTailStopped_orders : (r.setTailStopped p b).orders = r.orders := rfl
@[simp] theorem Run.setTailStopped_counters : (r.setTailStopped p b).counters = r.counters := rfl
@[simp] theorem Run.setTailStopped_slots : (r.setTailStopped p b).slots = r.slots := rfl
@[simp] theorem Run.setTailStopped_stack : (r.setTailStopped p b).stack = r.stack := rfl
@[simp] theorem Run.setTailStopped_notices : (r.setTailStopped p b).notices = r.notices := rfl
@[simp] theorem Run.setTailStopped_handoffs : (r.setTailStopped p b).handoffs = r.handoffs := rfl
@[simp] theorem Run.setTailStopped_schedule : (r.setTailStopped p b).schedule = r.schedule := rfl
@[simp] theorem Run.setTailStopped_choices : (r.setTailStopped p b).choices = r.choices := rfl

end setTailStopped

section joinStrike
variable (x : StrikeEntry) (r : Run)

@[simp] theorem Run.joinStrike_motions : (r.joinStrike x).motions = r.motions := rfl
@[simp] theorem Run.joinStrike_lamps : (r.joinStrike x).lamps = r.lamps := rfl
@[simp] theorem Run.joinStrike_gate : (r.joinStrike x).gate = r.gate := rfl
@[simp] theorem Run.joinStrike_scans : (r.joinStrike x).scans = r.scans := rfl
@[simp] theorem Run.joinStrike_chains : (r.joinStrike x).chains = r.chains := rfl
@[simp] theorem Run.joinStrike_runoutRaised : (r.joinStrike x).runoutRaised = r.runoutRaised := rfl
@[simp] theorem Run.joinStrike_tailStopped : (r.joinStrike x).tailStopped = r.tailStopped := rfl
@[simp] theorem Run.joinStrike_roles : (r.joinStrike x).roles = r.roles := rfl
@[simp] theorem Run.joinStrike_onAir : (r.joinStrike x).onAir = r.onAir := rfl
@[simp] theorem Run.joinStrike_orders : (r.joinStrike x).orders = r.orders := rfl
@[simp] theorem Run.joinStrike_counters : (r.joinStrike x).counters = r.counters := rfl
@[simp] theorem Run.joinStrike_slots : (r.joinStrike x).slots = r.slots := rfl
@[simp] theorem Run.joinStrike_stack : (r.joinStrike x).stack = r.stack := rfl
@[simp] theorem Run.joinStrike_notices : (r.joinStrike x).notices = r.notices := rfl
@[simp] theorem Run.joinStrike_handoffs : (r.joinStrike x).handoffs = r.handoffs := rfl
@[simp] theorem Run.joinStrike_schedule : (r.joinStrike x).schedule = r.schedule := rfl
@[simp] theorem Run.joinStrike_choices : (r.joinStrike x).choices = r.choices := rfl

end joinStrike

section leaveStrike
variable (p : Fin 8) (r : Run)

@[simp] theorem Run.leaveStrike_motions : (r.leaveStrike p).motions = r.motions := rfl
@[simp] theorem Run.leaveStrike_lamps : (r.leaveStrike p).lamps = r.lamps := rfl
@[simp] theorem Run.leaveStrike_gate : (r.leaveStrike p).gate = r.gate := rfl
@[simp] theorem Run.leaveStrike_scans : (r.leaveStrike p).scans = r.scans := rfl
@[simp] theorem Run.leaveStrike_chains : (r.leaveStrike p).chains = r.chains := rfl
@[simp] theorem Run.leaveStrike_runoutRaised : (r.leaveStrike p).runoutRaised = r.runoutRaised := rfl
@[simp] theorem Run.leaveStrike_tailStopped : (r.leaveStrike p).tailStopped = r.tailStopped := rfl
@[simp] theorem Run.leaveStrike_roles : (r.leaveStrike p).roles = r.roles := rfl
@[simp] theorem Run.leaveStrike_onAir : (r.leaveStrike p).onAir = r.onAir := rfl
@[simp] theorem Run.leaveStrike_orders : (r.leaveStrike p).orders = r.orders := rfl
@[simp] theorem Run.leaveStrike_counters : (r.leaveStrike p).counters = r.counters := rfl
@[simp] theorem Run.leaveStrike_slots : (r.leaveStrike p).slots = r.slots := rfl
@[simp] theorem Run.leaveStrike_stack : (r.leaveStrike p).stack = r.stack := rfl
@[simp] theorem Run.leaveStrike_notices : (r.leaveStrike p).notices = r.notices := rfl
@[simp] theorem Run.leaveStrike_handoffs : (r.leaveStrike p).handoffs = r.handoffs := rfl
@[simp] theorem Run.leaveStrike_schedule : (r.leaveStrike p).schedule = r.schedule := rfl
@[simp] theorem Run.leaveStrike_choices : (r.leaveStrike p).choices = r.choices := rfl

end leaveStrike

section hand
variable (h : Handoff) (r : Run)

@[simp] theorem Run.hand_motions : (r.hand h).motions = r.motions := rfl
@[simp] theorem Run.hand_lamps : (r.hand h).lamps = r.lamps := rfl
@[simp] theorem Run.hand_strikeQueue : (r.hand h).strikeQueue = r.strikeQueue := rfl
@[simp] theorem Run.hand_gate : (r.hand h).gate = r.gate := rfl
@[simp] theorem Run.hand_scans : (r.hand h).scans = r.scans := rfl
@[simp] theorem Run.hand_chains : (r.hand h).chains = r.chains := rfl
@[simp] theorem Run.hand_runoutRaised : (r.hand h).runoutRaised = r.runoutRaised := rfl
@[simp] theorem Run.hand_tailStopped : (r.hand h).tailStopped = r.tailStopped := rfl
@[simp] theorem Run.hand_roles : (r.hand h).roles = r.roles := rfl
@[simp] theorem Run.hand_onAir : (r.hand h).onAir = r.onAir := rfl
@[simp] theorem Run.hand_orders : (r.hand h).orders = r.orders := rfl
@[simp] theorem Run.hand_counters : (r.hand h).counters = r.counters := rfl
@[simp] theorem Run.hand_slots : (r.hand h).slots = r.slots := rfl
@[simp] theorem Run.hand_stack : (r.hand h).stack = r.stack := rfl
@[simp] theorem Run.hand_notices : (r.hand h).notices = r.notices := rfl
@[simp] theorem Run.hand_schedule : (r.hand h).schedule = r.schedule := rfl
@[simp] theorem Run.hand_choices : (r.hand h).choices = r.choices := rfl

end hand

section handAll
variable (hs : List Handoff) (r : Run)

@[simp] theorem Run.handAll_motions : (r.handAll hs).motions = r.motions := rfl
@[simp] theorem Run.handAll_lamps : (r.handAll hs).lamps = r.lamps := rfl
@[simp] theorem Run.handAll_strikeQueue : (r.handAll hs).strikeQueue = r.strikeQueue := rfl
@[simp] theorem Run.handAll_gate : (r.handAll hs).gate = r.gate := rfl
@[simp] theorem Run.handAll_scans : (r.handAll hs).scans = r.scans := rfl
@[simp] theorem Run.handAll_chains : (r.handAll hs).chains = r.chains := rfl
@[simp] theorem Run.handAll_runoutRaised : (r.handAll hs).runoutRaised = r.runoutRaised := rfl
@[simp] theorem Run.handAll_tailStopped : (r.handAll hs).tailStopped = r.tailStopped := rfl
@[simp] theorem Run.handAll_roles : (r.handAll hs).roles = r.roles := rfl
@[simp] theorem Run.handAll_onAir : (r.handAll hs).onAir = r.onAir := rfl
@[simp] theorem Run.handAll_orders : (r.handAll hs).orders = r.orders := rfl
@[simp] theorem Run.handAll_counters : (r.handAll hs).counters = r.counters := rfl
@[simp] theorem Run.handAll_slots : (r.handAll hs).slots = r.slots := rfl
@[simp] theorem Run.handAll_stack : (r.handAll hs).stack = r.stack := rfl
@[simp] theorem Run.handAll_notices : (r.handAll hs).notices = r.notices := rfl
@[simp] theorem Run.handAll_schedule : (r.handAll hs).schedule = r.schedule := rfl
@[simp] theorem Run.handAll_choices : (r.handAll hs).choices = r.choices := rfl

end handAll

@[simp] theorem Run.setGate_gate (g : Gate) (r : Run) : (r.setGate g).gate = g := rfl
@[simp] theorem Run.hand_handoffs (h : Handoff) (r : Run) :
    (r.hand h).handoffs = r.handoffs ++ [h] := rfl
@[simp] theorem Run.handAll_handoffs (hs : List Handoff) (r : Run) :
    (r.handAll hs).handoffs = r.handoffs ++ hs := rfl
@[simp] theorem Run.joinStrike_strikeQueue (x : StrikeEntry) (r : Run) :
    (r.joinStrike x).strikeQueue = r.strikeQueue ++ [x] := rfl

end Sys2Proof.Machine
end

