-- ==== Sys2Proof/Laws/Acts.lean ====
section
/-! SUPPORT. Everything the blocks can do to the run-time state, said once: `Acts e full obs r0 r` says that r
comes from r0 by the named small updates. With `full` false no motion record is touched, with
`obs` false no observed selection. -/

namespace Sys2Proof.Machine

/-! ### The class codes of the slots (table of 9.1) -/

@[simp] theorem classOf_slotLoop : (classOf slotLoop).val = 0 := rfl
@[simp] theorem classOf_slotQueue : (classOf slotQueue).val = 1 := rfl
@[simp] theorem classOf_slotChangeFailed (c : Fin 4) : (classOf (slotChangeFailed c)).val = 2 := by
  revert c; decide
@[simp] theorem classOf_slotSwitchFailed (c : Fin 4) : (classOf (slotSwitchFailed c)).val = 3 := by
  revert c; decide
@[simp] theorem classOf_slotRunout (c : Fin 4) : (classOf (slotRunout c)).val = 4 := by
  revert c; decide
@[simp] theorem classOf_slotMarkMissing (c : Fin 4) : (classOf (slotMarkMissing c)).val = 5 := by
  revert c; decide
@[simp] theorem classOf_slotBreak (p : Fin 8) : (classOf (slotBreak p)).val = 6 := by
  revert p; decide
@[simp] theorem classOf_slotLamp (p : Fin 8) : (classOf (slotLamp p)).val = 7 := by
  revert p; decide
@[simp] theorem classOf_slotHalt (p : Fin 8) : (classOf (slotHalt p)).val = 8 := by
  revert p; decide
@[simp] theorem classOf_slotSilent (p : Fin 8) : (classOf (slotSilent p)).val = 9 := by
  revert p; decide
@[simp] theorem classOf_slotStrike (p : Fin 8) : (classOf (slotStrike p)).val = 10 := by
  revert p; decide
@[simp] theorem classOf_slotStop (p : Fin 8) : (classOf (slotStop p)).val = 11 := by
  revert p; decide
@[simp] theorem classOf_slotDwell (p : Fin 8) : (classOf (slotDwell p)).val = 12 := by
  revert p; decide
@[simp] theorem classOf_slotRule (p : Fin 8) : (classOf (slotRule p)).val = 13 := by
  revert p; decide

/-- The reach of the blocks' own operations. -/
inductive Acts (e : Env) (full obs : Bool) (r0 : Run) : Run → Prop
  | refl : Acts e full obs r0 r0
  | motion {r : Run} (hf : full = true) (p : Fin 8) (f : MotionRec → MotionRec)
      (hs : ∀ m, m.sound → (f m).sound) (h : Acts e full obs r0 r) : Acts e full obs r0 (r.modMotion p f)
  | observed {r : Run} (ho : obs = true) (c : Fin 4) (f : ChainRec → ChainRec) (h : Acts e full obs r0 r) :
      Acts e full obs r0 (r.modChain c f)
  | lamp {r : Run} (p : Fin 8) (f : LampRec → LampRec) (h : Acts e full obs r0 r) :
      Acts e full obs r0 (r.modLamp p f)
  | scan {r : Run} (p : Fin 8) (f : ScanRec → ScanRec) (hs : ∀ x, x.sound → (f x).sound)
      (h : Acts e full obs r0 r) : Acts e full obs r0 (r.modScan p f)
  | chain {r : Run} (c : Fin 4) (f : ChainRec → ChainRec) (ho : ∀ x, (f x).observed = x.observed)
      (h : Acts e full obs r0 r) : Acts e full obs r0 (r.modChain c f)
  | join {r : Run} (x : StrikeEntry) (h : Acts e full obs r0 r) : Acts e full obs r0 (r.joinStrike x)
  | leave {r : Run} (p : Fin 8) (h : Acts e full obs r0 r) : Acts e full obs r0 (r.leaveStrike p)
  | gate {r : Run} (g : Gate) (h : Acts e full obs r0 r) : Acts e full obs r0 (r.setGate g)
  | runout {r : Run} (p : Fin 8) (b : Bool) (h : Acts e full obs r0 r) : Acts e full obs r0 (r.setRunoutRaised p b)
  | tail {r : Run} (p : Fin 8) (b : Bool) (h : Acts e full obs r0 r) : Acts e full obs r0 (r.setTailStopped p b)
  | roles {r : Run} (a : Vector Role 8) (b : Vector Bool 8) (h : Acts e full obs r0 r) :
      Acts e full obs r0 { r with roles := a, onAir := b }
  | raise {r : Run} (k : Fin 82) (v : Option Int) (x : Option (Fin 16 × Severity))
      (hx : (classOf k).val = 13 → x.isSome = true) (h : Acts e full obs r0 r) : Acts e full obs r0 (raise e k v x r)
  | notice {r : Run} (b : NoticeBody) (h : Acts e full obs r0 r) : Acts e full obs r0 (queueNotice e b r)
  | order {r : Run} (st : Station) (o : Order) (h : Acts e full obs r0 r) :
      Acts e full obs r0 (queueOrder st o r)
  | dropOrders {r : Run} (f : OrderEntry → Bool) (h : Acts e full obs r0 r) :
      Acts e full obs r0 { r with orders := r.orders.filter f }
  | takeOrder {r : Run} (x : OrderEntry) (h : Acts e full obs r0 r) : Acts e full obs r0 (removeOrder x r)
  | replace {r : Run} (st : Station) (i : Input) (h : Acts e full obs r0 r) :
      Acts e full obs r0 (replaceSelect st i r)
  | counters {r : Run} (cs : Vector (Vector Nat 8) 16) (h : Acts e full obs r0 r) :
      Acts e full obs r0 { r with counters := cs }
  | hand {r : Run} (hs : List Handoff) (hb : ∀ x ∈ hs, full = true ∨ x.block ≠ .motion)
      (h : Acts e full obs r0 r) : Acts e full obs r0 (r.handAll hs)
  | pick {r r1 : Run} (x : Handoff) (hp : pickHandoff r = some (x, r1)) (h : Acts e full obs r0 r) :
      Acts e full obs r0 r1

section
variable {e : Env} {full obs : Bool} {r0 r : Run}

theorem Acts.one (x : Handoff) (hb : full = true ∨ x.block ≠ .motion) (h : Acts e full obs r0 r) :
    Acts e full obs r0 (r.hand x) :=
  h.hand [x] (by simpa using hb)

theorem foldl_acts {α : Type} {f : Run → α → Run}
    (hf : ∀ r a, Acts e full obs r0 r → Acts e full obs r0 (f r a)) (l : List α) (h : Acts e full obs r0 r) :
    Acts e full obs r0 (l.foldl f r) := by
  induction l generalizing r with
  | nil => exact h
  | cons a l ih => exact ih (hf r a h)

/-! ### Ops -/

theorem raiseChain_acts (k : Fin 82) (h : Acts e full obs r0 r)
    (hk : (classOf k).val ≠ 13 := by simp) : Acts e full obs r0 (raiseChain e k r) :=
  h.raise _ _ _ (fun x => absurd x hk)
theorem raisePosition_acts (k : Fin 82) (p : Fin 8) (h : Acts e full obs r0 r)
    (hk : (classOf k).val ≠ 13 := by simp) : Acts e full obs r0 (raisePosition e k p r) :=
  h.raise _ _ _ (fun x => absurd x hk)

theorem queueFor_acts (p : Fin 8) (o : Order) (h : Acts e full obs r0 r) : Acts e full obs r0 (queueFor e p o r) := by
  unfold queueFor; split
  · exact h.order ..
  · exact h

theorem withdrawOrder_acts (st : Station) (k : Nat) (h : Acts e full obs r0 r) :
    Acts e full obs r0 (withdrawOrder st k r) := h.dropOrders ..
theorem withdrawStation_acts (st : Station) (h : Acts e full obs r0 r) :
    Acts e full obs r0 (withdrawStation st r) := h.dropOrders ..
theorem supersede_acts (st : Station) (f : Family) (h : Acts e full obs r0 r) :
    Acts e full obs r0 (supersede st f r) := h.dropOrders ..

end

end Sys2Proof.Machine
end

