-- ==== Sys2Proof/Laws/BlockActs.lean ====
section
/-! SUPPORT. One lemma for each operation of the blocks: it acts on the run-time state as `Acts` says. -/

namespace Sys2Proof.Machine

section
variable {e : Env} {full obs : Bool} {r0 r : Run}

/-! ### The Lamp Unit -/

theorem conditionEvent_block (p : Fin 8) : ∀ x ∈ conditionEvent e p, x.block ≠ .motion := by
  unfold conditionEvent; split <;> simp [Handoff.block]

theorem publish_acts (p : Fin 8) (a b : Bool) (h : Acts e full obs r0 r) : Acts e full obs r0 (publish e p a b r) := by
  unfold publish
  refine (h.lamp ..).hand _ (fun x hx => .inr ?_)
  rcases List.mem_append.1 hx with hx | hx <;> split at hx <;>
    first | exact conditionEvent_block p x hx | simp at hx

theorem workConditions_acts (p : Fin 8) (h : Acts e full obs r0 r) : Acts e full obs r0 (workConditions e p r) :=
  publish_acts _ _ _ h

theorem grantTo_acts (p : Fin 8) (h : Acts e full obs r0 r) : Acts e full obs r0 (grantTo e p r) :=
  workConditions_acts _ (queueFor_acts _ _ (((h.leave _).lamp _ _).gate _))

theorem offerGrant_acts (h : Acts e full obs r0 r) : Acts e full obs r0 (offerGrant e r) := by
  unfold offerGrant; repeat' split
  all_goals first | exact grantTo_acts _ h | exact h

theorem freeGate_acts (h : Acts e full obs r0 r) : Acts e full obs r0 (freeGate e r) := offerGrant_acts (h.gate _)

theorem enterGap_acts (h : Acts e full obs r0 r) : Acts e full obs r0 (enterGap e r) := by
  unfold enterGap; split
  · exact freeGate_acts h
  · exact h.gate _

theorem endStrikeOf_acts (p : Fin 8) (h : Acts e full obs r0 r) : Acts e full obs r0 (endStrikeOf e p r) := by
  unfold endStrikeOf; split
  · exact enterGap_acts h
  · exact h

theorem strikeRequest_acts (p : Fin 8) (c : StrikeClass) (h : Acts e full obs r0 r) :
    Acts e full obs r0 (strikeRequest e p c r) := by
  unfold strikeRequest; split
  · exact offerGrant_acts ((h.join _).lamp _ _)
  · exact h

theorem lampDownTaken_acts (p : Fin 8) (h : Acts e full obs r0 r) : Acts e full obs r0 (lampDownTaken e p r) := by
  unfold lampDownTaken; dsimp only
  refine workConditions_acts _ ?_
  repeat' split
  all_goals first
    | exact endStrikeOf_acts _ ((h.lamp ..).leave _) | exact endStrikeOf_acts _ (h.lamp ..)
    | exact (h.lamp ..).leave _ | exact h.lamp ..

theorem lampDownRequest_acts (p : Fin 8) (h : Acts e full obs r0 r) : Acts e full obs r0 (lampDownRequest e p r) :=
  queueFor_acts _ _ (lampDownTaken_acts _ h)

theorem enterSettling_acts (p : Fin 8) (h : Acts e full obs r0 r) : Acts e full obs r0 (enterSettling e p r) := by
  unfold enterSettling; dsimp only; split
  · exact (h.lamp ..).one _ (.inr (by simp [Handoff.block]))
  · exact h.lamp ..

theorem lampLost_acts (p : Fin 8) (h : Acts e full obs r0 r) : Acts e full obs r0 (lampLost e p r) := by
  unfold lampLost
  exact ((raisePosition_acts _ _ (h.lamp ..)).one _ (.inr (by simp [Handoff.block]))).one _
    (.inr (by simp [Handoff.block]))

theorem lampSignal_acts (p : Fin 8) (b : Bool) (h : Acts e full obs r0 r) : Acts e full obs r0 (lampSignal e p b r) := by
  unfold lampSignal; dsimp only; repeat' split
  all_goals first
    | exact h | exact h.lamp .. | exact enterSettling_acts _ h | exact enterSettling_acts _ (h.leave _)
    | exact endStrikeOf_acts _ (enterSettling_acts _ h) | exact lampLost_acts _ h

theorem takeLampReport_acts (p : Fin 8) (a b : Bool) (h : Acts e full obs r0 r) :
    Acts e full obs r0 (takeLampReport e p a b r) := by
  unfold takeLampReport; dsimp only; repeat' split
  all_goals first
    | exact offerGrant_acts (workConditions_acts _ ((lampSignal_acts _ _ h).lamp ..))
    | exact workConditions_acts _ ((lampSignal_acts _ _ h).lamp ..)

theorem dowserCloseTaken_acts (p : Fin 8) (h : Acts e full obs r0 r) : Acts e full obs r0 (dowserCloseTaken p r) :=
  h.lamp ..
theorem countDwell_acts (p : Fin 8) (h : Acts e full obs r0 r) : Acts e full obs r0 (countDwell e p r) := h.lamp ..

theorem countGap_acts (h : Acts e full obs r0 r) : Acts e full obs r0 (countGap r) := by
  unfold countGap; split
  · exact h.gate _
  · exact h
  · exact h

theorem expireStrike_acts (p : Fin 8) (h : Acts e full obs r0 r) : Acts e full obs r0 (expireStrike e p r) := by
  have h3 : Acts e full obs r0 (endStrikeOf e p ((raisePosition e (slotStrike p) p r).modLamp p
      (fun l => { l with lamp := .dark, strikeTimer := none }))) :=
    endStrikeOf_acts _ ((raisePosition_acts _ _ h).lamp ..)
  unfold expireStrike; dsimp only; split
  · refine workConditions_acts _ ?_
    repeat' split
    all_goals first | exact withdrawOrder_acts _ _ h3 | exact lampDownRequest_acts _ h3 | exact h3
  · exact h

theorem expireSettle_acts (p : Fin 8) (h : Acts e full obs r0 r) : Acts e full obs r0 (expireSettle e p r) := by
  unfold expireSettle; split
  · exact workConditions_acts _ (h.lamp ..)
  · exact h

theorem expireGap_acts (h : Acts e full obs r0 r) : Acts e full obs r0 (expireGap e r) := by
  unfold expireGap; split
  · exact freeGate_acts h
  · exact h

theorem expireDwell_acts (p : Fin 8) (h : Acts e full obs r0 r) : Acts e full obs r0 (expireDwell e p r) := by
  unfold expireDwell; split
  · exact (raisePosition_acts _ _ (queueFor_acts _ _ h)).lamp ..
  · exact h

theorem restartLamp_acts (p : Fin 8) (h : Acts e full obs r0 r) : Acts e full obs r0 (restartLamp e p r) := by
  unfold restartLamp; dsimp only
  exact endStrikeOf_acts _ (((publish_acts _ _ _ h).lamp ..).leave _)

/-! ### The Chain Unit's own operations -/

theorem derive_acts (c : Fin 4) (h : Acts e full obs r0 r) : Acts e full obs r0 (derive e c r) :=
  h.chain _ _ (fun _ => rfl)

theorem queueForChain_acts (c : Fin 4) (o : Order) (h : Acts e full obs r0 r) :
    Acts e full obs r0 (queueForChain e c o r) := by
  unfold queueForChain; split
  · exact h.order ..
  · exact h

theorem switchTo_acts (c : Fin 4) (i : Input) (k : SwitchKind) (b : Bool) (h : Acts e full obs r0 r) :
    Acts e full obs r0 (switchTo e c i k b r) :=
  (queueForChain_acts _ _ h).chain _ _ (fun _ => rfl)

theorem switchToFallback_acts (c : Fin 4) (b : Bool) (h : Acts e full obs r0 r) :
    Acts e full obs r0 (switchToFallback e c b r) := switchTo_acts _ _ _ _ h

theorem raiseRunout_acts (c : Fin 4) (p : Fin 8) (h : Acts e full obs r0 r) :
    Acts e full obs r0 (raiseRunout e c p r) := by
  unfold raiseRunout; split
  · exact h
  · exact (raiseChain_acts _ h).runout ..

theorem guardRunout_acts (b : Bool) (c : Fin 4) (p : Fin 8) (h : Acts e full obs r0 r) :
    Acts e full obs r0 (guardRunout e b c p r) := by
  unfold guardRunout; dsimp only; repeat' split
  all_goals first
    | exact switchToFallback_acts _ _ (raiseRunout_acts _ _ h) | exact raiseRunout_acts _ _ h | exact h

theorem tailStop_acts (c : Fin 4) (x : Port) (p : Fin 8) (h : Acts e full obs r0 r) :
    Acts e full obs r0 (tailStop e c x p r) := by
  unfold tailStop; split
  · exact (queueFor_acts _ _ (queueFor_acts _ _ h)).tail ..
  · exact h

theorem evaluateRunout_acts (b : Bool) (p : Fin 8) (h : Acts e full obs r0 r) :
    Acts e full obs r0 (evaluateRunout e b p r) := by
  unfold evaluateRunout; repeat' split
  all_goals first
    | exact h | exact (h.runout ..).tail .. | exact guardRunout_acts _ _ _ h | exact tailStop_acts _ _ _ h

theorem evaluatePorts_acts (b : Bool) (c : Fin 4) (h : Acts e full obs r0 r) :
    Acts e full obs r0 (evaluatePorts e b c r) :=
  foldl_acts (fun _ p h => evaluateRunout_acts b p h) _ h

theorem evaluateReturn_acts (b : Bool) (c : Fin 4) (back : Run) (h : Acts e full obs r0 r) :
    Acts e full obs r0 (evaluateReturn e b c back r) := by
  unfold evaluateReturn; split
  · exact evaluatePorts_acts _ _ h
  · exact h

theorem holdExpiryRule_acts (c : Fin 4) (p : Fin 8) (k : HoldKind) (h : Acts e full obs r0 r) :
    Acts e full obs r0 (holdExpiryRule e c p k r) := by
  have h1 : Acts e full obs r0 (raiseChain e (slotChangeFailed c) r) := raiseChain_acts _ h
  unfold holdExpiryRule; dsimp only; repeat' split
  all_goals first
    | exact derive_acts _ h1 | exact switchToFallback_acts _ _ h1
    | exact evaluateReturn_acts _ _ _ (derive_acts _ h1)

theorem changeover_acts (c : Fin 4) (p q : Fin 8) (o : ChangeoverFrom) (b : Bool) (h : Acts e full obs r0 r) :
    Acts e full obs r0 (changeover e c p q o b r) := by
  unfold changeover; repeat' split
  all_goals first | exact h | exact switchTo_acts _ _ _ _ h | exact holdExpiryRule_acts _ _ _ h

theorem plannedCaption_acts (c : Fin 4) (h : Acts e full obs r0 r) : Acts e full obs r0 (plannedCaption e c r) := by
  unfold plannedCaption; split
  · exact switchTo_acts _ _ _ _ h
  · exact h

theorem clearHold_acts (c : Fin 4) (h : Acts e full obs r0 r) : Acts e full obs r0 (clearHold e c r) :=
  h.chain _ _ (fun _ => rfl)

theorem endHolding_acts (c : Fin 4) (p : Fin 8) (k : HoldKind) (how : HoldEnd) (h : Acts e full obs r0 r) :
    Acts e full obs r0 (endHolding e c p k how r) := by
  have h1 := clearHold_acts c h
  unfold endHolding; dsimp only; split
  all_goals first
    | exact evaluateReturn_acts _ _ _ (derive_acts _ h1)
    | exact evaluateReturn_acts _ _ _ (changeover_acts _ _ _ _ _ (derive_acts _ h1))
    | exact holdExpiryRule_acts _ _ _ h1

theorem holdEnd_acts (c : Fin 4) (p : Fin 8) (how : HoldEnd) (h : Acts e full obs r0 r) :
    Acts e full obs r0 (holdEnd e c p how r) := by
  unfold holdEnd; split
  · exact endHolding_acts _ _ _ _ h
  · exact changeover_acts _ _ _ _ _ h
  · exact h

theorem holdStart_acts (c : Fin 4) (p q : Fin 8) (k : HoldKind) (h : Acts e full obs r0 r) :
    Acts e full obs r0 (holdStart e c p q k r) :=
  strikeRequest_acts _ _ (h.chain _ _ (fun _ => rfl))

theorem holdFault_acts (c : Fin 4) (p : Fin 8) (k : HoldKind) (h : Acts e full obs r0 r) :
    Acts e full obs r0 (holdFault e c p k r) := by
  unfold holdFault; split
  · exact holdExpiryRule_acts _ _ _ (h.chain _ _ (fun _ => rfl))
  · exact h

/-! ### The Cue Scanner -/

theorem advanced_sound (x : ScanRec) (h : x.sound) : x.advanced.sound := by
  simp only [ScanRec.sound, ScanRec.advanced] at *; omega
theorem placed_sound (n : Nat) (x : ScanRec) (h : x.sound) : (x.placed n).sound := by
  simp only [ScanRec.sound, ScanRec.placed] at *; omega
theorem released_sound (x : ScanRec) (h : x.sound) : x.released.sound := by
  simp only [ScanRec.sound, ScanRec.released] at *; omega
theorem restarted_sound (x : ScanRec) (_ : x.sound) : ScanRec.restarted.sound := by
  simp [ScanRec.sound, ScanRec.restarted]
theorem takeDot_sound (b : Bool) (x : ScanRec) (h : x.sound) : (x.takeDot b).sound := by
  simp only [ScanRec.sound, ScanRec.takeDot] at *
  repeat' split
  all_goals (dsimp only; omega)

theorem endScanHold_acts (p : Fin 8) (f : ScanRec → ScanRec) (hs : ∀ x, x.sound → (f x).sound)
    (h : Acts e full obs r0 r) : Acts e full obs r0 (endScanHold e p f r) := by
  have h1 := h.scan p f hs
  unfold endScanHold; dsimp only; split
  · exact holdEnd_acts _ _ _ h1
  · exact h1

theorem complete_acts (p : Fin 8) (b : Cue) (how : CueOutcome) (h : Acts e full obs r0 r) :
    Acts e full obs r0 (complete e p b how r) := by
  unfold complete; dsimp only
  exact (h.notice _).scan _ _ advanced_sound

theorem putHold_acts (p q : Fin 8) (h : Acts e full obs r0 r) : Acts e full obs r0 (putHold p q r) :=
  h.scan _ _ (fun _ hx => hx)
theorem putWait_acts (p : Fin 8) (h : Acts e full obs r0 r) : Acts e full obs r0 (putWait p r) :=
  h.scan _ _ (fun _ hx => hx)
theorem notePartnerRan_acts (p q : Fin 8) (h : Acts e full obs r0 r) : Acts e full obs r0 (notePartnerRan p q r) :=
  h.scan _ _ (fun _ hx => hx)
theorem prerollOrders_acts (q : Fin 8) (h : Acts e full obs r0 r) : Acts e full obs r0 (prerollOrders e q r) :=
  queueFor_acts _ _ (queueFor_acts _ _ h)

theorem beginHold_acts (c : Fin 4) (p q : Fin 8) (k : HoldKind) (h : Acts e full obs r0 r) :
    Acts e full obs r0 (beginHold e c p q k r).1 := by
  unfold beginHold; split
  · exact holdStart_acts _ _ _ _ (putHold_acts _ _ h)
  · exact h

theorem takePreroll_acts (c : Fin 4) (p q : Fin 8) (b : Bool) (h : Acts e full obs r0 r) :
    Acts e full obs r0 (takePreroll e c p q b r).1 := by
  unfold takePreroll; repeat' split
  all_goals first
    | exact prerollOrders_acts _ h | exact holdFault_acts _ _ _ h | exact beginHold_acts _ _ _ _ h

theorem takeChange_acts (c : Fin 4) (p q : Fin 8) (b : Bool) (h : Acts e full obs r0 r) :
    Acts e full obs r0 (takeChange e c p q b r).1 := by
  unfold takeChange; repeat' split
  all_goals first
    | exact changeover_acts _ _ _ _ _ h | exact holdFault_acts _ _ _ h | exact beginHold_acts _ _ _ _ h

theorem takeChainAction_acts (c : Fin 4) (p : Fin 8) (q : Option (Fin 8)) (a : Action)
    (h : Acts e full obs r0 r) : Acts e full obs r0 (takeChainAction e c p q a r).1 := by
  unfold takeChainAction; split
  · exact plannedCaption_acts _ h
  · exact takePreroll_acts _ _ _ _ h
  · exact takeChange_acts _ _ _ _ h
  · exact strikeRequest_acts _ _ h
  · exact h

theorem takePartnerAction_acts (p : Fin 8) (a : Action) (h : Acts e full obs r0 r) :
    Acts e full obs r0 (takePartnerAction e p a r).1 := by
  unfold takePartnerAction; repeat' split
  all_goals first | exact h | exact takeChainAction_acts _ _ _ _ h

theorem ownAction_acts (p : Fin 8) (a : Action) (h : Acts e full obs r0 r) :
    Acts e full obs r0 (ownAction e p a r) := by
  unfold ownAction; split
  · exact lampDownRequest_acts _ h
  · exact queueFor_acts _ _ (queueFor_acts _ _ h)

theorem takeOwnAction_acts (p : Fin 8) (a : Action) (h : Acts e full obs r0 r) :
    Acts e full obs r0 (takeOwnAction e p a r).1 := by
  unfold takeOwnAction; repeat' split
  all_goals first | exact h | exact putWait_acts _ h | exact ownAction_acts _ _ h

theorem takeAction_acts (p : Fin 8) (a : Action) (h : Acts e full obs r0 r) :
    Acts e full obs r0 (takeAction e p a r).1 := by
  unfold takeAction; split
  all_goals first | exact h | exact takeOwnAction_acts _ _ h | exact takePartnerAction_acts _ _ h

theorem noteMet_acts (p : Fin 8) (b : Bool) (h : Acts e full obs r0 r) : Acts e full obs r0 (noteMet e p b r) := by
  have h1 := h.scan p (fun x => { x with met := some b }) (fun _ hx => hx)
  unfold noteMet raiseMarkMissing; dsimp only; repeat' split
  all_goals first | exact h1 | exact raiseChain_acts _ h1

theorem conditionCame_acts (c : Fin 4) (p q : Fin 8) (a : Action) (h : Acts e full obs r0 r) :
    Acts e full obs r0 (conditionCame e c p q a r).1 := by
  unfold conditionCame; split
  · exact holdEnd_acts _ _ _ h
  · exact holdEnd_acts _ _ _ (prerollOrders_acts _ h)

theorem takeHeldIn_acts (ev : CueEvent) (c : Fin 4) (p q : Fin 8) (a : Action) (h : Acts e full obs r0 r) :
    Acts e full obs r0 (takeHeldIn e ev c p q a r).1 := by
  unfold takeHeldIn; repeat' split
  all_goals first | exact h | exact holdEnd_acts _ _ _ h | exact conditionCame_acts _ _ _ _ h

theorem takeHeld_acts (ev : CueEvent) (p : Fin 8) (a : Action) (h : Acts e full obs r0 r) :
    Acts e full obs r0 (takeHeld e ev p a r).1 := by
  unfold takeHeld; split
  · exact takeHeldIn_acts _ _ _ _ _ (notePartnerRan_acts _ _ h)
  · exact h

theorem takeCue_acts (ev : CueEvent) (p : Fin 8) (b : Cue) (h : Acts e full obs r0 r) :
    Acts e full obs r0 (takeCue e ev p b r).1 := by
  unfold takeCue; dsimp only; repeat' split
  all_goals first
    | exact h | exact takeHeld_acts _ _ _ h | exact takeOwnAction_acts _ _ h | exact takeAction_acts _ _ h
    | exact takeAction_acts _ _ (noteMet_acts _ _ h)

theorem takeRecord_acts (ev : CueEvent) (p : Fin 8) (h : Acts e full obs r0 r) :
    Acts e full obs r0 (takeRecord e ev p r).1 := by
  unfold takeRecord
  split
  · exact h
  · exact h.scan _ _ advanced_sound
  · rename_i b _
    have h1 := takeCue_acts ev p b h
    split
    · rename_i heq; rw [heq] at h1; exact complete_acts _ _ _ h1
    · rename_i heq; rw [heq] at h1; exact h1

theorem walk_acts (ev : CueEvent) (p : Fin 8) (n : Nat) (h : Acts e full obs r0 r) :
    Acts e full obs r0 (walk e ev p n r) := by
  induction n generalizing r with
  | zero => exact h
  | succ n ih =>
    have h1 := takeRecord_acts ev p h
    unfold walk; split
    · rename_i heq; rw [heq] at h1; exact ih h1
    · rename_i heq; rw [heq] at h1; exact h1

theorem evaluate_acts (ev : CueEvent) (p : Fin 8) (h : Acts e full obs r0 r) :
    Acts e full obs r0 (evaluate e ev p r) := by
  unfold evaluate; split
  · exact walk_acts _ _ _ h
  · exact h

theorem evaluateBoth_acts (ev : CueEvent) (c : Fin 4) (h : Acts e full obs r0 r) :
    Acts e full obs r0 (evaluateBoth e ev c r) :=
  foldl_acts (fun _ p h => evaluate_acts ev p h) _ h

theorem countMark_acts (p : Fin 8) (h : Acts e full obs r0 r) : Acts e full obs r0 (countMark e p r) := by
  unfold countMark; split
  · refine h.scan _ _ (fun x hx => ?_)
    simp only [ScanRec.sound] at *; omega
  · exact h

theorem takeCueReport_acts (p : Fin 8) (a b : Bool) (h : Acts e full obs r0 r) :
    Acts e full obs r0 (takeCueReport e p a b r) := by
  have h1 := h.scan p (ScanRec.takeDot a) (takeDot_sound a)
  unfold takeCueReport; dsimp only; repeat' split
  all_goals first
    | exact h | exact h1 | exact countMark_acts _ h1 | exact evaluate_acts _ _ h1
    | exact evaluate_acts _ _ (countMark_acts _ h1)

theorem takeUnreferenced_acts (p : Fin 8) (h : Acts e full obs r0 r) :
    Acts e full obs r0 (takeUnreferenced e p r) := by
  unfold takeUnreferenced; split
  · exact h
  · exact endScanHold_acts _ _ released_sound h

/-! ### The Chain Unit at events -/

theorem overtakeSwitch_acts (c : Fin 4) (x : Port) (h : Acts e full obs r0 r) :
    Acts e full obs r0 (overtakeSwitch e c x r) := by
  unfold overtakeSwitch; dsimp only; repeat' split
  · exact (h.replace ..).chain _ _ (fun _ => rfl)
  · exact h.chain _ _ (fun _ => rfl)
  · exact h

theorem roleChanged_acts (was : Vector Role 8) (p : Fin 8) (h : Acts e full obs r0 r) :
    Acts e full obs r0 (roleChanged e was r p) := by
  unfold roleChanged; dsimp only
  refine evaluateRunout_acts _ _ (evaluate_acts _ _ ?_)
  repeat' split
  all_goals first | exact overtakeSwitch_acts _ _ h | exact h

theorem recordRole_acts (p : Fin 8) (h : Acts e full obs r0 r) : Acts e full obs r0 (recordRole e r p) := h.roles ..

theorem workRoles_acts (h : Acts e full obs r0 r) : Acts e full obs r0 (workRoles e r) :=
  foldl_acts (fun _ p h => roleChanged_acts _ p h) _ (foldl_acts (fun _ p h => recordRole_acts p h) _ h)

theorem reactToLoss_acts (c : Fin 4) (p : Fin 8) (b : Bool) (h : Acts e full obs r0 r) :
    Acts e full obs r0 (reactToLoss e c p b r) := by
  unfold reactToLoss; repeat' split
  all_goals first
    | exact changeover_acts _ _ _ _ _ h | exact strikeRequest_acts _ _ (switchToFallback_acts _ _ h)
    | exact switchToFallback_acts _ _ h | exact h

theorem completeHeld_acts (p : Fin 8) (h : Acts e full obs r0 r) : Acts e full obs r0 (completeHeld e r p) := by
  unfold completeHeld; split
  · exact takeRecord_acts _ _ h
  · exact h

theorem onAirLoss_acts (c : Fin 4) (p : Fin 8) (h : Acts e full obs r0 r) :
    Acts e full obs r0 (onAirLoss e c p r) := by
  unfold onAirLoss; dsimp only
  refine evaluateBoth_acts _ _ ?_
  split
  · exact evaluateReturn_acts _ _ _ (reactToLoss_acts _ _ _
      (foldl_acts (fun _ q h => completeHeld_acts q h) _ (derive_acts _ (clearHold_acts _ h))))
  · exact reactToLoss_acts _ _ _ (foldl_acts (fun _ q h => completeHeld_acts q h) _ h)

theorem takeFault_acts (p : Fin 8) (h : Acts e full obs r0 r) : Acts e full obs r0 (takeFault e p r) := by
  unfold takeFault; repeat' split
  all_goals first | exact onAirLoss_acts _ _ h | exact h

theorem reapplyLoss_acts (c : Fin 4) (h : Acts e full obs r0 r) : Acts e full obs r0 (reapplyLoss e c r) := by
  unfold reapplyLoss; repeat' split
  all_goals first | exact reactToLoss_acts _ _ _ h | exact h

theorem endUnconfirmed_acts (c : Fin 4) (back : Run) (h : Acts e full obs r0 r) :
    Acts e full obs r0 (endUnconfirmed e c back r) :=
  evaluateReturn_acts _ _ _ (reapplyLoss_acts _ (evaluateBoth_acts _ _ h))

theorem takeMotionChange_acts (p : Fin 8) (moved : Bool) (h : Acts e full obs r0 r) :
    Acts e full obs r0 (takeMotionChange e p moved r) := by
  unfold takeMotionChange rederive; repeat' split
  · exact evaluateRunout_acts _ _ (workRoles_acts (derive_acts _ h))
  · exact evaluateRunout_acts _ _ (workRoles_acts h)
  all_goals exact workRoles_acts h

theorem clearSwitch_acts (c : Fin 4) (h : Acts e full obs r0 r) : Acts e full obs r0 (clearSwitch c r) :=
  h.chain _ _ (fun _ => rfl)

theorem withdrawSelect_acts (c : Fin 4) (h : Acts e full obs r0 r) : Acts e full obs r0 (withdrawSelect e c r) := by
  unfold withdrawSelect; repeat' split
  all_goals first | exact withdrawOrder_acts _ _ h | exact h

theorem setChainState_acts (c : Fin 4) (x : ChainState) (h : Acts e full obs r0 r) :
    Acts e full obs r0 (setChainState c x r) := h.chain _ _ (fun _ => rfl)

theorem setObserved_acts (ho : obs = true) (c : Fin 4) (i : Input) (h : Acts e full obs r0 r) :
    Acts e full obs r0 (setObserved c i r) := h.observed ho _ _

theorem confirmSwitch_acts (ho : obs = true) (c : Fin 4) (i : Input) (k : SwitchKind)
    (h : Acts e full obs r0 r) : Acts e full obs r0 (confirmSwitch e c i k r) := by
  have h2 := clearSwitch_acts c ((setObserved_acts ho c i h).notice
    (.change c (r.chains.get c).fromInput i k (r.chains.get c).holdSweeps))
  unfold confirmSwitch; dsimp only
  refine evaluateReturn_acts _ _ _ (evaluateBoth_acts _ _ (workRoles_acts ?_))
  repeat' split
  all_goals first
    | exact switchToFallback_acts _ _ (setChainState_acts _ _ h2) | exact setChainState_acts _ _ h2
    | exact switchToFallback_acts _ _ (derive_acts _ h2) | exact derive_acts _ h2

theorem abandonSwitch_acts (ho : obs = true) (c : Fin 4) (i : Input) (h : Acts e full obs r0 r) :
    Acts e full obs r0 (abandonSwitch e c i r) :=
  endUnconfirmed_acts _ _ (workRoles_acts (derive_acts _ (clearSwitch_acts _
    (withdrawSelect_acts _ ((setObserved_acts ho c i h).notice _)))))

theorem adoptSelection_acts (ho : obs = true) (c : Fin 4) (i : Input) (h : Acts e full obs r0 r) :
    Acts e full obs r0 (adoptSelection e c i r) := by
  have h1 := workRoles_acts ((setObserved_acts ho c i h).notice (.adopt c i (r.chains.get c).observed none))
  unfold adoptSelection; dsimp only
  split
  · exact derive_acts _ h1
  · exact h1

theorem takeMux_acts (ho : obs = true) (c : Fin 4) (i : Input) (h : Acts e full obs r0 r) :
    Acts e full obs r0 (takeMux e c i r) := by
  unfold takeMux; dsimp only; split
  case h_1 => exact workRoles_acts (derive_acts _ (setObserved_acts ho _ _ h))
  case h_2 =>
    split
    · split
      · exact confirmSwitch_acts ho _ _ _ h
      · split
        · exact h
        · exact abandonSwitch_acts ho _ _ h
    · exact abandonSwitch_acts ho _ _ h
  all_goals
    split
    · exact h
    · exact adoptSelection_acts ho _ _ h

theorem selectInserted_acts (c : Fin 4) (h : Acts e full obs r0 r) : Acts e full obs r0 (selectInserted c r) := by
  unfold selectInserted; dsimp only; split
  · exact h.chain _ _ (fun _ => rfl)
  · exact h

theorem deskSelect_acts (c : Fin 4) (i : Input) (h : Acts e full obs r0 r) :
    Acts e full obs r0 (deskSelect e c i r) := by
  unfold deskSelect; dsimp only
  refine Acts.chain _ _ (fun _ => rfl) ?_
  split
  · refine clearHold_acts _ (h.hand _ (fun x hx => .inr ?_))
    obtain ⟨p, _, rfl⟩ := List.mem_map.1 hx
    simp [Handoff.block]
  · exact h

theorem countHold_acts (c : Fin 4) (h : Acts e full obs r0 r) : Acts e full obs r0 (countHold e c r) := by
  refine h.chain _ _ (fun x => ?_)
  split <;> rfl

theorem countSwitch_acts (c : Fin 4) (h : Acts e full obs r0 r) : Acts e full obs r0 (countSwitch c r) := by
  refine h.chain _ _ (fun x => ?_)
  split <;> rfl

theorem expireHold_acts (c : Fin 4) (h : Acts e full obs r0 r) : Acts e full obs r0 (expireHold c r) := by
  unfold expireHold; repeat' split
  · exact h.one _ (.inr (by simp [Handoff.block]))
  · exact h
  · exact h

theorem expireSwitch_acts (c : Fin 4) (h : Acts e full obs r0 r) : Acts e full obs r0 (expireSwitch e c r) := by
  unfold expireSwitch; dsimp only; split
  · exact endUnconfirmed_acts _ _ (derive_acts _ (clearSwitch_acts _ (withdrawSelect_acts _ (raiseChain_acts _ h))))
  · exact h

/-! ### The Rule Unit -/

theorem countRule_acts (p : Fin 8) (b : Byte) (m : Motion) (i : Fin 16) (h : Acts e full obs r0 r) :
    Acts e full obs r0 (countRule e p b m r i) := by
  unfold countRule setCounter; dsimp only; split
  · exact h.counters _
  · exact h

theorem ruleAct_acts (p : Fin 8) (i : Fin 16) (h : Acts e full obs r0 r) : Acts e full obs r0 (ruleAct e p r i) := by
  have h2 : Acts e full obs r0 (stopAction e p r) := queueFor_acts _ _ (queueFor_acts _ _ h)
  unfold ruleAct lossAction; repeat' split
  all_goals first | exact h2 | exact h | exact queueFor_acts _ _ h | exact takeFault_acts _ h

theorem takeRuleReport_acts (p : Fin 8) (b : Byte) (m : Motion) (h : Acts e full obs r0 r) :
    Acts e full obs r0 (takeRuleReport e p b m r) := by
  have h1 : Acts e full obs r0 (allRules.foldl (countRule e p b m) r) :=
    foldl_acts (fun _ i h => countRule_acts p b m i h) _ h
  unfold takeRuleReport; dsimp only; split
  · exact h1
  · exact foldl_acts (fun _ i h => ruleAct_acts p i h) _ (h1.raise _ _ _ (fun _ => rfl))

/-! ### The Motion Tracker -/

theorem handChange_acts (p : Fin 8) (moved : Bool) (h : Acts e full obs r0 r) :
    Acts e full obs r0 (handChange e p moved r) := by
  refine h.hand _ (fun x hx => .inr ?_)
  simp only [List.mem_append, List.mem_cons, List.not_mem_nil, or_false] at hx
  rcases hx with (rfl | rfl) | hx
  · simp [Handoff.block]
  · simp [Handoff.block]
  · exact conditionEvent_block p x hx

theorem handIfChanged_acts (p : Fin 8) (b : MotionRec) (h : Acts e full obs r0 r) :
    Acts e full obs r0 (handIfChanged e p b r) := by
  unfold handIfChanged; dsimp only; split
  · exact handChange_acts _ _ h
  · exact h

variable (hf : full = true)
include hf

theorem loseReference_acts (p : Fin 8) (h : Acts e full obs r0 r) : Acts e full obs r0 (loseReference p r) := by
  unfold loseReference; split
  · exact (h.motion hf _ _ (by intro _ hx; exact hx)).hand _ (fun _ _ => .inl hf)
  · exact h

theorem unreference_acts (p : Fin 8) (w : UnrefReason) (h : Acts e full obs r0 r) :
    Acts e full obs r0 (unreference e p w r) := by
  unfold unreference; dsimp only; split
  · exact (loseReference_acts hf _ h).notice _
  · exact h

theorem enterBroken_acts (p : Fin 8) (h : Acts e full obs r0 r) : Acts e full obs r0 (enterBroken e p r) := by
  unfold enterBroken; dsimp only
  exact (unreference_acts hf _ _ (queueFor_acts _ _ (queueFor_acts _ _ (raisePosition_acts _ _
    (h.motion hf _ _ (by intro _ hx; exact hx)))))).one _ (.inl hf)

theorem unorderedStop_acts (p : Fin 8) (h : Acts e full obs r0 r) : Acts e full obs r0 (unorderedStop e p r) := by
  unfold unorderedStop
  exact (raisePosition_acts _ _ (h.motion hf _ _ (by intro _ hx; exact hx))).one _ (.inl hf)

theorem gapStep_acts (p : Fin 8) (h : Acts e full obs r0 r) : Acts e full obs r0 (gapStep e p r) := by
  have h1 := h.motion hf p MotionRec.resynced (fun m hm => ⟨hm.1, hm.2.1, Nat.zero_le _⟩)
  unfold gapStep; dsimp only; repeat' split
  · exact h1.notice _
  · exact h1
  · exact h.motion hf _ _ (fun m hm => ⟨hm.1, hm.2.1, Nat.zero_le _⟩)

theorem countStep_acts (p : Fin 8) (w : BitVec 16) (k : Count) (h : Acts e full obs r0 r) :
    Acts e full obs r0 (countStep e p w k r) := by
  have h1 := h.motion hf p (fun m => { m with lastCount := some w }) (fun _ hx => hx)
  unfold countStep; dsimp only; split
  · exact h1
  · exact h1
  · refine h1.motion hf _ _ (fun m hm => ?_)
    simp only [MotionRec.sound, advanceValue, Config.maxPosition] at *; omega
  · exact unreference_acts hf _ _ h1

theorem motionStep_acts (p : Fin 8) (now : Byte) (k : Count) (h : Acts e full obs r0 r) :
    Acts e full obs r0 (motionStep e p now k r) := by
  have hm : ∀ f : MotionRec → MotionRec, (∀ m, m.sound → (f m).sound) →
      Acts e full obs r0 (r.modMotion p f) := fun f hs => h.motion hf p f hs
  have ha : ∀ m : MotionRec, m.sound → (m.adopted now).sound := by
    intro m hm; unfold MotionRec.adopted; repeat' split
    all_goals exact hm
  unfold motionStep reportInRunup reportInLocked reportInStopping reportInBroken; dsimp only
  repeat' split
  all_goals first
    | exact h | exact enterBroken_acts hf _ h | exact unorderedStop_acts hf _ h
    | exact hm _ ha | exact (hm _ (by intro _ hx; exact hx)).notice _ | exact hm _ (by intro _ hx; exact hx)

theorem countStall_acts (p : Fin 8) (h : Acts e full obs r0 r) : Acts e full obs r0 (countStall e p r) := by
  unfold countStall; dsimp only; split
  · exact enterBroken_acts hf _ (h.motion hf _ _ (by intro _ hx; exact hx))
  · exact h.motion hf _ _ (by intro _ hx; exact hx)

theorem stallStep_acts (p : Fin 8) (k : Count) (h : Acts e full obs r0 r) :
    Acts e full obs r0 (stallStep e p k r) := by
  unfold stallStep; repeat' split
  all_goals first | exact h | exact countStall_acts hf _ h | exact h.motion hf _ _ (by intro _ hx; exact hx)

theorem takeReport_acts (p : Fin 8) (now : Byte) (w : BitVec 16) (h : Acts e full obs r0 r) :
    Acts e full obs r0 (takeReport e p now w r) := by
  unfold takeReport; dsimp only
  refine (handIfChanged_acts _ _ ?_).hand _ (fun _ _ => .inl hf)
  refine (stallStep_acts hf _ _ (motionStep_acts hf _ _ _ (countStep_acts hf _ _ _
    (gapStep_acts hf _ (h.one _ (.inl hf)))))).motion hf _ _ (by intro _ hx; exact hx)

theorem startTaken_acts (p : Fin 8) (h : Acts e full obs r0 r) : Acts e full obs r0 (startTaken e p r) := by
  unfold startTaken; split
  all_goals first | exact h | exact handChange_acts _ _ (h.motion hf _ _ (by intro _ hx; exact hx))

theorem stopTaken_acts (p : Fin 8) (h : Acts e full obs r0 r) : Acts e full obs r0 (stopTaken e p r) := by
  unfold stopTaken; split
  all_goals first | exact h | exact handChange_acts _ _ (h.motion hf _ _ (by intro _ hx; exact hx))

theorem becomeSilent_acts (p : Fin 8) (h : Acts e full obs r0 r) : Acts e full obs r0 (becomeSilent e p r) := by
  unfold becomeSilent; dsimp only; split
  · exact handChange_acts _ _ ((raisePosition_acts _ _ (h.motion hf _ _ (by intro _ hx; exact hx))).one _ (.inl hf))
  · exact h

theorem expireRunup_acts (p : Fin 8) (h : Acts e full obs r0 r) : Acts e full obs r0 (expireRunup e p r) := by
  unfold expireRunup; dsimp only; split
  · exact handChange_acts _ _ (((queueFor_acts _ _ (raisePosition_acts _ _ h)).motion hf _ _ (by intro _ hx; exact hx)).one _ (.inl hf))
  · exact h

theorem expireStop_acts (p : Fin 8) (h : Acts e full obs r0 r) : Acts e full obs r0 (expireStop e p r) := by
  unfold expireStop; split
  · exact raisePosition_acts _ _ (h.motion hf _ _ (by intro _ hx; exact hx))
  · exact h

theorem markResync_acts (p : Fin 8) (h : Acts e full obs r0 r) : Acts e full obs r0 (markResync e r p) := by
  unfold markResync; split
  · exact h.motion hf _ _ (by intro _ hx; exact hx)
  · exact h

theorem regain_acts (h : Acts e full obs r0 r) : Acts e full obs r0 (regain e r) :=
  foldl_acts (fun _ p h => markResync_acts hf p h) _ h

theorem restartMotion_acts (p : Fin 8) (h : Acts e full obs r0 r) : Acts e full obs r0 (restartMotion p r) :=
  h.motion hf _ _ (fun _ _ => by simp [MotionRec.sound, MotionRec.restarted])

omit hf

/-! ### Hand-offs taken -/

theorem takeHandoff_acts (x : Handoff) (hb : full = true ∨ x.block ≠ .motion) (h : Acts e full obs r0 r) :
    Acts e full obs r0 (takeHandoff e x r) := by
  cases x <;> simp only [Handoff.block, ne_eq, reduceCtorEq, not_false_eq_true, or_true, not_true, or_false]
    at hb <;> unfold takeHandoff
  case lampReport => exact takeLampReport_acts _ _ _ h
  case lampConditions => exact workConditions_acts _ h
  case chainMotion => exact takeMotionChange_acts _ _ h
  case chainLampFault => exact workRoles_acts h
  case chainFault => exact takeFault_acts _ h
  case chainAdvance => exact evaluateRunout_acts _ _ h
  case cueUnreferenced => exact takeUnreferenced_acts _ h
  case cueReport => exact takeCueReport_acts _ _ _ h
  case cueEvent => exact evaluate_acts _ _ h
  case ruleReport => exact takeRuleReport_acts _ _ _ h
  case silentDue => exact becomeSilent_acts hb _ h
  case runupDue => exact expireRunup_acts hb _ h
  case stopDue => exact expireStop_acts hb _ h
  case strikeDue => exact expireStrike_acts _ h
  case settleDue => exact expireSettle_acts _ h
  case gapDue => exact expireGap_acts h
  case dwellDue => exact expireDwell_acts _ h
  case holdDue => exact expireHold_acts _ h
  case switchDue => exact expireSwitch_acts _ h

theorem takeOldest_sub {b : Block} {hs rest : List Handoff} {x : Handoff}
    (h : takeOldest b hs = some (x, rest)) : x ∈ hs ∧ ∀ y ∈ rest, y ∈ hs := by
  induction hs generalizing x rest with
  | nil => simp [takeOldest] at h
  | cons a l ih =>
    unfold takeOldest at h
    split at h
    · simp only [Option.some.injEq, Prod.mk.injEq] at h
      obtain ⟨rfl, rfl⟩ := h
      exact ⟨by simp, fun y hy => by simp [hy]⟩
    · split at h
      · rename_i x' rest' heq
        simp only [Option.some.injEq, Prod.mk.injEq] at h
        obtain ⟨rfl, rfl⟩ := h
        obtain ⟨h1, h2⟩ := ih heq
        refine ⟨by simp [h1], fun y hy => ?_⟩
        rcases List.mem_cons.1 hy with rfl | hy
        · simp
        · simp [h2 y hy]
      · simp at h

/-- A picked hand-off was waiting, and what is left was waiting. -/
theorem pickHandoff_sub {r1 : Run} {x : Handoff} (h : pickHandoff r = some (x, r1)) :
    x ∈ r.handoffs ∧ ∀ y ∈ r1.handoffs, y ∈ r.handoffs := by
  unfold pickHandoff at h
  split at h
  · simp at h
  · obtain ⟨⟨y, rest⟩, h1, h2⟩ := Option.map_eq_some_iff.1 h
    simp only [Prod.mk.injEq] at h2
    obtain ⟨rfl, rfl⟩ := h2
    exact takeOldest_sub h1
  · dsimp only at h
    obtain ⟨⟨y, rest⟩, h1, h2⟩ := Option.map_eq_some_iff.1 h
    simp only [Prod.mk.injEq] at h2
    obtain ⟨rfl, rfl⟩ := h2
    exact takeOldest_sub h1

end

end Sys2Proof.Machine
end

