-- ==== Sys2Proof/Laws/Reach.lean ====
section
/-! SUPPORT. What `Acts` leaves alone and what it keeps, each proved once; and that taking every hand-off
acts in the same way. -/

namespace Sys2Proof.Machine

section
variable {e : Env} {full obs : Bool} {r0 r : Run}

/-- Picking a hand-off changes the hand-offs and the record of open orders alone. -/
theorem pickHandoff_eq {r1 : Run} {x : Handoff} (h : pickHandoff r = some (x, r1)) :
    ∃ hs sched n, r1 = { r with handoffs := hs, schedule := sched, choices := n } := by
  unfold pickHandoff at h
  split at h
  · simp at h
  · obtain ⟨⟨y, rest⟩, _, h2⟩ := Option.map_eq_some_iff.1 h
    simp only [Prod.mk.injEq] at h2
    exact ⟨rest, r.schedule, r.choices, h2.2.symm⟩
  · dsimp only at h
    obtain ⟨⟨y, rest⟩, _, h2⟩ := Option.map_eq_some_iff.1 h
    simp only [Prod.mk.injEq] at h2
    refine ⟨rest, r.choiceUsed.schedule, r.choiceUsed.choices, ?_⟩
    rw [← h2.2]; unfold Run.choiceUsed; split <;> rfl

/-! ### Taking hand-offs -/

theorem drainFor_acts (hf : full = true) (n : Nat) (h : Acts e full obs r0 r) :
    Acts e full obs r0 (drainFor e n r) := by
  induction n generalizing r with
  | zero => exact h
  | succ n ih =>
    unfold drainFor; split
    · exact h
    · rename_i x r1 heq
      exact ih (takeHandoff_acts _ (.inl hf) (h.pick _ heq))

/-- Taking every hand-off is among the blocks' own operations. -/
theorem drain_acts (hf : full = true) (h : Acts e full obs r0 r) : Acts e full obs r0 (drain e r) :=
  drainFor_acts hf _ h

/-- No hand-off to the Motion Tracker waits. -/
def NoMotionDue (r : Run) : Prop := ∀ x ∈ r.handoffs, x.block ≠ .motion

@[simp] theorem raise_handoffs (k : Fin 82) (v : Option Int) (x : Option (Fin 16 × Severity)) :
    (raise e k v x r).handoffs = r.handoffs := by unfold raise; split <;> rfl
@[simp] theorem queueNotice_handoffs (b : NoticeBody) : (queueNotice e b r).handoffs = r.handoffs := by
  unfold queueNotice raiseChain; split <;> simp

theorem Acts.noMotionDue (h : Acts e false obs r0 r) (h0 : NoMotionDue r0) : NoMotionDue r := by
  induction h with
  | refl => exact h0
  | raise _ _ _ _ _ ih => simpa [NoMotionDue] using ih
  | notice _ _ ih => simpa [NoMotionDue] using ih
  | hand hs hb _ ih =>
    intro x hx
    rcases List.mem_append.1 (by simpa using hx) with h | h
    · exact ih x h
    · simpa using hb x h
  | pick x hp _ ih => exact fun y hy => ih y ((pickHandoff_sub hp).2 y hy)
  | _ => assumption

theorem drainFor_acts_quietly (n : Nat) (h0 : NoMotionDue r0) (h : Acts e false obs r0 r) :
    Acts e false obs r0 (drainFor e n r) := by
  induction n generalizing r with
  | zero => exact h
  | succ n ih =>
    unfold drainFor; split
    · exact h
    · rename_i x r1 heq
      exact ih (takeHandoff_acts _ (.inr (h.noMotionDue h0 x (pickHandoff_sub heq).1)) (h.pick _ heq))

/-- Where nothing waits for the Motion Tracker, the hand-offs touch no motion record. -/
theorem drain_acts_quietly (h0 : NoMotionDue r) : Acts e false obs r (drain e r) :=
  drainFor_acts_quietly _ h0 .refl

/-- With nothing handed on, nothing follows. -/
theorem drain_quiet (h : r.handoffs = []) : drain e r = r := by
  have : pickHandoff r = none := by simp [pickHandoff, h, waitingBlocks]
  unfold drain
  show drainFor e (4095 + 1) r = r
  unfold drainFor; rw [this]

/-! ### What no hand-off of another block touches -/

@[simp] theorem raise_motions (k : Fin 82) (v : Option Int) (x : Option (Fin 16 × Severity)) :
    (raise e k v x r).motions = r.motions := by unfold raise; split <;> rfl
@[simp] theorem queueNotice_motions (b : NoticeBody) : (queueNotice e b r).motions = r.motions := by
  unfold queueNotice raiseChain; split <;> simp
@[simp] theorem raise_chains (k : Fin 82) (v : Option Int) (x : Option (Fin 16 × Severity)) :
    (raise e k v x r).chains = r.chains := by unfold raise; split <;> rfl
@[simp] theorem queueNotice_chains (b : NoticeBody) : (queueNotice e b r).chains = r.chains := by
  unfold queueNotice raiseChain; split <;> simp
@[simp] theorem raise_scans (k : Fin 82) (v : Option Int) (x : Option (Fin 16 × Severity)) :
    (raise e k v x r).scans = r.scans := by unfold raise; split <;> rfl
@[simp] theorem queueNotice_scans (b : NoticeBody) : (queueNotice e b r).scans = r.scans := by
  unfold queueNotice raiseChain; split <;> simp
@[simp] theorem raise_orders (k : Fin 82) (v : Option Int) (x : Option (Fin 16 × Severity)) :
    (raise e k v x r).orders = r.orders := by unfold raise; split <;> rfl
@[simp] theorem queueNotice_orders (b : NoticeBody) : (queueNotice e b r).orders = r.orders := by
  unfold queueNotice raiseChain; split <;> simp
@[simp] theorem raise_stack (k : Fin 82) (v : Option Int) (x : Option (Fin 16 × Severity)) :
    (raise e k v x r).stack = r.stack := by unfold raise; split <;> rfl
@[simp] theorem queueNotice_stack (b : NoticeBody) : (queueNotice e b r).stack = r.stack := by
  unfold queueNotice raiseChain; split <;> simp
@[simp] theorem raise_notices (k : Fin 82) (v : Option Int) (x : Option (Fin 16 × Severity)) :
    (raise e k v x r).notices = r.notices := by unfold raise; split <;> rfl

/-- With `full` false the motion records stay. -/
theorem Acts.motions (h : Acts e false obs r0 r) : r.motions = r0.motions := by
  induction h with
  | refl => rfl
  | motion hf => cases hf
  | raise _ _ _ _ _ ih => simpa using ih
  | notice _ _ ih => simpa using ih
  | pick x hp _ ih => obtain ⟨_, _, _, rfl⟩ := pickHandoff_eq hp; exact ih
  | _ => assumption

/-- With `obs` false the observed selections stay. -/
theorem Acts.observed_same (h : Acts e full false r0 r) (c : Fin 4) :
    (r.chains.get c).observed = (r0.chains.get c).observed := by
  induction h with
  | refl => rfl
  | observed ho => cases ho
  | raise _ _ _ _ _ ih => simpa using ih
  | notice _ _ ih => simpa using ih
  | chain d f ho _ ih =>
    rw [Run.modChain_get]; split
    · rename_i hd; subst hd; rw [ho]; exact ih
    · exact ih
  | pick x hp _ ih => obtain ⟨_, _, _, rfl⟩ := pickHandoff_eq hp; exact ih
  | _ => assumption

/-! ### The alarm slots and the stack -/

theorem Acts.stack (h : Acts e full obs r0 r) : r.stack = r0.stack := by
  induction h with
  | refl => rfl
  | raise _ _ _ _ _ ih => simpa using ih
  | notice _ _ ih => simpa using ih
  | pick x hp _ ih => obtain ⟨_, _, _, rfl⟩ := pickHandoff_eq hp; exact ih
  | _ => assumption

@[simp] theorem raised_underService (w : Byte) (v : Option Int) (x : Option (Fin 16 × Severity)) (s : Slot) :
    (s.raised w v x).underService = s.underService := by unfold Slot.raised; split <;> rfl
@[simp] theorem raised_pending (w : Byte) (v : Option Int) (x : Option (Fin 16 × Severity)) (s : Slot) :
    (s.raised w v x).pending = true := by unfold Slot.raised; split <;> simp_all

/-- What a raise makes of each slot. -/
theorem raise_slot (k j : Fin 82) (v : Option Int) (x : Option (Fin 16 × Severity)) :
    (raise e k v x r).slots.get j =
      if k = j ∧ e.setup.enables.get (classOf k) = true then (r.slots.get j).raised e.sweep v x
      else r.slots.get j := by
  unfold raise
  by_cases h : e.setup.enables.get (classOf k) = true
  · simp only [h, if_true, and_true]
    rw [Run.modSlot_get]; split
    · rename_i hk; subst hk; rfl
    · rfl
  · simp [h]

/-- A raise through a notice that finds no room, or a plain raise: the only ways a slot changes. -/
theorem queueNotice_slot (b : NoticeBody) (j : Fin 82) :
    (queueNotice e b r).slots.get j = r.slots.get j
      ∨ (queueNotice e b r).slots.get j = (r.slots.get j).raised e.sweep none none ∧ j = slotQueue := by
  unfold queueNotice; split
  · exact .inl rfl
  · unfold raiseChain; rw [raise_slot]; split
    · rename_i h; exact .inr ⟨rfl, h.1.symm⟩
    · exact .inl rfl

/-- A property of a slot that every raise of it keeps is kept. -/
theorem Acts.slot_keeps {k : Fin 82} {P : Slot → Prop}
    (hP : ∀ w v x s, ((classOf k).val = 13 → x.isSome = true) → P s → P (s.raised w v x))
    (h : Acts e full obs r0 r) (h0 : P (r0.slots.get k)) : P (r.slots.get k) := by
  induction h with
  | refl => exact h0
  | raise j v x hx _ ih =>
    rw [raise_slot]; split
    · rename_i hj; exact hP _ _ _ _ (hj.1 ▸ hx) ih
    · exact ih
  | notice b _ ih =>
    rcases queueNotice_slot (e := e) (r := _) b k with h | ⟨h, hk⟩
    · rw [h]; exact ih
    · rw [h]; exact hP _ _ _ _ (by subst hk; intro h; simp at h) ih
  | pick x hp _ ih => obtain ⟨_, _, _, rfl⟩ := pickHandoff_eq hp; exact ih
  | _ => assumption

theorem Acts.underService (h : Acts e full obs r0 r) (k : Fin 82) :
    (r.slots.get k).underService = (r0.slots.get k).underService :=
  h.slot_keeps (P := fun s => s.underService = (r0.slots.get k).underService)
    (fun _ _ _ _ _ hs => by simpa using hs) rfl

/-- A pending slot stays pending. -/
theorem Acts.pending (h : Acts e full obs r0 r) (k : Fin 82) (h0 : (r0.slots.get k).pending = true) :
    (r.slots.get k).pending = true :=
  h.slot_keeps (P := fun s => s.pending = true) (fun _ _ _ _ _ _ => by simp) h0

/-- A RULE slot under service keeps the severity it was taken with. -/
theorem Acts.captured (h : Acts e full obs r0 r) (k : Fin 82) (i : Fin 16) (v : Severity)
    (hu : (r0.slots.get k).underService = true) (h0 : (r0.slots.get k).rule = some (i, v))
    (hk : (classOf k).val = 13) : ∃ j, (r.slots.get k).rule = some (j, v) := by
  have := h.slot_keeps (k := k) (P := fun s => s.underService = true ∧ ∃ j, s.rule = some (j, v)) ?_
    ⟨hu, i, h0⟩
  · exact this.2
  · rintro w a x s hx ⟨h1, j, h2⟩
    refine ⟨by simpa using h1, ?_⟩
    obtain ⟨⟨m, t⟩, rfl⟩ := Option.isSome_iff_exists.1 (hx hk)
    unfold Slot.raised; split
    · exact ⟨j, h2⟩
    · simp [h1, h2]

theorem Acts.ruleCaptured (h : Acts e full obs r0 r) (h0 : RuleCaptured r0) : RuleCaptured r := by
  intro k hk
  refine h.slot_keeps (P := fun s => (s.pending || s.underService) = true → s.rule.isSome = true)
    ?_ (h0 k hk)
  intro w v x s hx hs _
  obtain ⟨⟨m, t⟩, rfl⟩ := Option.isSome_iff_exists.1 (hx hk)
  unfold Slot.raised; split
  · rename_i hp; exact hs (by simp [hp])
  · dsimp only; split <;> simp_all

/-- The severity of a slot under service stays. -/
theorem Acts.severity (h : Acts e full obs r0 r) (h0 : RuleCaptured r0) (k : Fin 82)
    (hu : (r0.slots.get k).underService = true) : severityOf r k = severityOf r0 k := by
  by_cases hk : (classOf k).val = 13
  · obtain ⟨⟨i, v⟩, hr⟩ := Option.isSome_iff_exists.1 (h0 k hk (by simp [hu]))
    obtain ⟨j, hj⟩ := h.captured k i v hu hr hk
    simp [severityOf, hk, hr, hj]
  · unfold severityOf
    split <;> first | rfl | omega

theorem Acts.stackSound (h : Acts e full obs r0 r) (h0 : StackSound r0) : StackSound r := by
  obtain ⟨h1, h2, h3, h4⟩ := h0
  refine ⟨h.stack ▸ h1, fun k => by rw [h.underService k, h2 k, h.stack], ?_, h.ruleCaptured h4⟩
  rw [h.stack]
  refine h3.imp_of_mem (fun {a b} ha hb hab => ?_)
  have sa := h.severity h4 a (by rw [h2 a]; simpa using ha)
  have sb := h.severity h4 b (by rw [h2 b]; simpa using hb)
  simpa [ranksAbove, sa, sb] using hab

/-! ### The queues -/

theorem holds_iff {x : OrderEntry} {st : Station} {f : Family} :
    x.holds st f = true ↔ x.station = st ∧ x.order.family = f := by
  simp [OrderEntry.holds]

theorem holds_false {x : OrderEntry} {st : Station} {f : Family} :
    x.holds st f = false ↔ ¬ (x.station = st ∧ x.order.family = f) := by
  rw [← holds_iff]; simp

/-- Entries replaced by others of the same station and family stay single. -/
theorem OrdersSingle.map {q : List OrderEntry} {f : OrderEntry → OrderEntry}
    (hf : ∀ x, (f x).station = x.station ∧ (f x).order.family = x.order.family) (h : OrdersSingle q) :
    OrdersSingle (q.map f) := by
  refine List.pairwise_map.2 (h.imp (fun {a b} hab => ?_))
  rw [holds_false] at *
  rw [(hf a).1, (hf a).2, (hf b).1, (hf b).2]; exact hab

theorem enqueueOrder_single {st : Station} {o : Order} {q : List OrderEntry} (h : OrdersSingle q) :
    OrdersSingle (enqueueOrder st o q) := by
  unfold enqueueOrder; split
  · refine h.map (fun x => ?_)
    split
    · rename_i hx; rw [holds_iff] at hx; exact ⟨hx.1.symm, hx.2.symm⟩
    · exact ⟨rfl, rfl⟩
  · rename_i hn
    refine List.pairwise_append.2 ⟨h, by simp, fun a ha b hb => ?_⟩
    obtain rfl := List.mem_singleton.1 hb
    simp only [List.any_eq_true, not_exists, not_and, Bool.not_eq_true] at hn
    exact hn a ha

theorem Acts.ordersSingle (h : Acts e full obs r0 r) (h0 : OrdersSingle r0.orders) : OrdersSingle r.orders := by
  induction h with
  | refl => exact h0
  | raise _ _ _ _ _ ih => simpa using ih
  | notice _ _ ih => simpa using ih
  | order st o _ ih => exact enqueueOrder_single ih
  | dropOrders f _ ih => exact ih.filter _
  | takeOrder x _ ih => exact ih.sublist List.erase_sublist
  | replace st i _ ih =>
    refine ih.map (fun x => ?_)
    split
    · rename_i hx; rw [holds_iff] at hx; exact ⟨hx.1.symm, hx.2.symm⟩
    · exact ⟨rfl, rfl⟩
  | pick x hp _ ih => obtain ⟨_, _, _, rfl⟩ := pickHandoff_eq hp; exact ih
  | _ => assumption

/-- R158: a notice joins as the youngest, or is discarded. -/
theorem queueNotice_notices (b : NoticeBody) :
    (queueNotice e b r).notices =
      if r.notices.length < 16 then r.notices ++ [{ sweep := e.sweep, body := b }] else r.notices := by
  unfold queueNotice raiseChain
  by_cases h : r.notices.length < 16
  · rw [if_pos h, if_pos (show r.notices.length < Config.noticeCapacity from h)]
  · rw [if_neg h, if_neg (show ¬ r.notices.length < Config.noticeCapacity from h)]; simp

theorem Acts.noticesBounded (h : Acts e full obs r0 r) (h0 : NoticesBounded r0) : NoticesBounded r := by
  induction h with
  | refl => exact h0
  | raise _ _ _ _ _ ih => simpa using ih
  | notice b _ ih =>
    unfold NoticesBounded at *
    rw [queueNotice_notices]; split
    · simp only [List.length_append, List.length_singleton]; omega
    · exact ih
  | pick x hp _ ih => obtain ⟨_, _, _, rfl⟩ := pickHandoff_eq hp; exact ih
  | _ => assumption

/-- The notices that wait keep their places. -/
theorem Acts.notices_prefix (h : Acts e full obs r0 r) : r0.notices <+: r.notices := by
  induction h with
  | refl => exact List.prefix_rfl
  | raise _ _ _ _ _ ih => simpa using ih
  | notice b _ ih =>
    rw [queueNotice_notices]; split
    · exact ih.trans (List.prefix_append _ _)
    · exact ih
  | pick x hp _ ih => obtain ⟨_, _, _, rfl⟩ := pickHandoff_eq hp; exact ih
  | _ => assumption

/-! ### Bounds -/

theorem Acts.countsInRange (h : Acts e full obs r0 r) (h0 : CountsInRange r0) : CountsInRange r := by
  induction h with
  | refl => exact h0
  | raise _ _ _ _ _ ih => intro p; simpa using ih p
  | notice _ _ ih => intro p; simpa using ih p
  | motion hf p f hs _ ih =>
    intro q; refine ⟨?_, (ih q).2⟩
    rw [Run.modMotion_get]; split
    · exact hs _ (ih p).1
    · exact (ih q).1
  | scan p f hs _ ih =>
    intro q; refine ⟨(ih q).1, ?_⟩
    rw [Run.modScan_get]; split
    · exact hs _ (ih p).2
    · exact (ih q).2
  | pick x hp _ ih => obtain ⟨_, _, _, rfl⟩ := pickHandoff_eq hp; exact ih
  | _ => assumption

end

end Sys2Proof.Machine
end

