-- ==== Sys2Proof/Laws/Commands.lean ====
section
/-! SUPPORT. What one command can do to the run-time state, said once for every command (`exec_moves`), and
what it leaves of the rest. -/

namespace Sys2Proof.Machine

/-! ### `act` and `judged` leave the other parts of the state -/

@[simp] theorem act_port (f : Env → Run → Run) (s : State) : (s.act f).port = s.port := rfl
@[simp] theorem act_setup (f : Env → Run → Run) (s : State) : (s.act f).setup = s.setup := rfl
@[simp] theorem act_pending (f : Env → Run → Run) (s : State) : (s.act f).pending = s.pending := rfl
@[simp] theorem judged_setup (s : State) : s.judged.setup = s.setup := rfl
@[simp] theorem judged_run (s : State) : s.judged.run = s.run := rfl
@[simp] theorem judged_pending (s : State) : s.judged.pending = s.pending := rfl
@[simp] theorem contactAsserted_contact (p : LoopPort) (b : Bool) (r : Run) :
    contactAsserted { p with contact := b } r = contactAsserted p r := rfl
theorem judged_contactRight (s : State) : s.judged.contactRight := rfl
@[simp] theorem leaves_powered (l : Leg) (o : Option Cell) (p : LoopPort) : (p.leaves l o).powered = p.powered := by
  cases l <;> rfl
@[simp] theorem leaves_resetHeld (l : Leg) (o : Option Cell) (p : LoopPort) :
    (p.leaves l o).resetHeld = p.resetHeld := by cases l <;> rfl
@[simp] theorem leaves_monitor (l : Leg) (o : Option Cell) (p : LoopPort) : (p.leaves l o).monitor = p.monitor := by
  cases l <;> rfl
@[simp] theorem leaves_own (l : Leg) (o : Option Cell) (p : LoopPort) : (p.leaves l o).own = p.own := by
  cases l <;> rfl
@[simp] theorem leaves_contact (l : Leg) (o : Option Cell) (p : LoopPort) : (p.leaves l o).contact = p.contact := by
  cases l <;> rfl
theorem contactAsserted_leaves (l : Leg) (o : Option Cell) (p : LoopPort) (r : Run) :
    contactAsserted (p.leaves l o) r = contactAsserted p r := by cases l <;> rfl

/-- Judging a contact that is right already changes nothing. -/
theorem judged_of_right {s : State} (h : s.contactRight) : s.judged = s := by
  unfold State.judged; rw [← show s.port.contact = contactAsserted s.port s.run from h]

/-! ### Every command's effect on the run-time state -/

/-- The ways one command changes the run-time state. -/
inductive RunMove (r : Run) : Run → Prop
  /-- The blocks act (or nothing happens). -/
  | acts {r1 : Run} (e : Env) (h : Acts e true true r r1) : RunMove r r1
  /-- R154: a slot is noticed. -/
  | noted (k : Fin 82) : RunMove r (noteSlot k r)
  /-- R154: the oldest notice leaves. -/
  | written (n : Notice) (rest : List Notice) (h : r.notices = n :: rest) : RunMove r { r with notices := rest }
  /-- R155: a slot is taken. -/
  | taken (k : Fin 82) (h : slotToTake r = some k) : RunMove r (takeSlot k r)
  /-- R156: the top of the stack is released. -/
  | released (k : Fin 82) (rest : List (Fin 82)) (h : r.stack = k :: rest) : RunMove r (releaseSlot k rest r)
  /-- R169, R171: a reset. -/
  | reset : RunMove r r.warmReset

theorem RunMove.same (e : Env) (r : Run) : RunMove r r := .acts e .refl

/-- An operation of the blocks on a state, hand-offs taken. -/
theorem act_moves {f : Env → Run → Run} {s : State} (r : Run) (hr : s.run = r)
    (h : Acts s.env true true r (f s.env s.run)) : RunMove r (s.act f).run := by
  subst hr; exact .acts s.env (drain_acts rfl h)

variable {e : Env} {full obs : Bool} {r : Run}

theorem withdrawOld_acts {r0 : Run} (old new : Option PosDef) (h : Acts e true obs r0 r) :
    Acts e true obs r0 (withdrawOld old new r) := by
  unfold withdrawOld; repeat' split
  all_goals first | exact h | exact withdrawStation_acts _ h

theorem redefinePosition_acts {r0 : Run} (p : Fin 8) (old new : Option PosDef) (h : Acts e true obs r0 r) :
    Acts e true obs r0 (redefinePosition p old new e r) := by
  unfold redefinePosition clearCountersOf; dsimp only
  exact workRoles_acts (withdrawOld_acts _ _ ((restartLamp_acts _ (endScanHold_acts _ _ restarted_sound
    (((restartMotion_acts rfl _ h).runout ..).tail ..))).counters _))

theorem redefineChain_acts {r0 : Run} (c : Fin 4) (old new : Option ChainDef) (h : Acts e full true r0 r) :
    Acts e full true r0 (redefineChain c old new e r) := by
  have h2 : Acts e full true r0 ((chainPositions old ++ chainPositions new).foldl clearRunoutFlags
      (r.modChain c (fun _ => ChainRec.restarted))) :=
    foldl_acts (fun _ p h => (h.runout p false).tail p false) _ (h.observed rfl c _)
  unfold redefineChain; dsimp only; split
  · exact workRoles_acts (withdrawStation_acts _ h2)
  · exact workRoles_acts h2

theorem changeMode_acts {r0 : Run} (c : Fin 4) (old new : ChainMode) (h : Acts e full obs r0 r) :
    Acts e full obs r0 (changeMode c old new e r) := by
  unfold changeMode; dsimp only; repeat' split
  all_goals first
    | exact h | exact evaluateBoth_acts _ _ h | exact evaluatePorts_acts _ _ h
    | exact evaluatePorts_acts _ _ (evaluateBoth_acts _ _ h)
    | exact reapplyLoss_acts _ (evaluatePorts_acts _ _ (evaluateBoth_acts _ _ h))
    | exact reapplyLoss_acts _ (evaluatePorts_acts _ _ h)
    | exact reapplyLoss_acts _ (evaluateBoth_acts _ _ h)
    | exact reapplyLoss_acts _ h

theorem cursorRewritten_acts {r0 : Run} (g : Fin 32) (w : Fin 8 → Bool) (h : Acts e full obs r0 r) :
    Acts e full obs r0 (cursorRewritten g w e r) := by
  unfold cursorRewritten; repeat' split
  all_goals first | exact h | exact endScanHold_acts _ _ released_sound h

theorem remapped_acts {r0 : Run} (p : Fin 8) (h : Acts e full obs r0 r) : Acts e full obs r0 (remapped p e r) :=
  endScanHold_acts _ _ (placed_sound 0) h

theorem placePosition_acts {r0 : Run} (p : Fin 8) (v : Int) (hv : inRange v = true) (h : Acts e true obs r0 r) :
    Acts e true obs r0 (placePosition p v e r) := by
  have h1 : Acts e true obs r0 (r.modMotion p (fun m => { m with value := v, referenced := true })) := by
    refine h.motion rfl _ _ (fun m hm => ?_)
    have h1 := hv
    simp only [inRange, Config.minPosition, Config.maxPosition, Bool.and_eq_true] at h1
    exact ⟨of_decide_eq_true h1.1, of_decide_eq_true h1.2, hm.2.2⟩
  unfold placePosition; dsimp only
  refine evaluateRunout_acts _ _ ?_
  split
  · exact endScanHold_acts _ _ (placed_sound _) h1
  · exact workConditions_acts _ (endScanHold_acts _ _ (placed_sound _) h1)

theorem handInsertion_acts {r0 : Run} (x : OrderEntry) (h : Acts e true obs r0 r) :
    Acts e true obs r0 (handInsertion e x r) := by
  unfold handInsertion atPosition atChain; repeat' split
  all_goals first
    | exact h | exact startTaken_acts rfl _ h | exact stopTaken_acts rfl _ h
    | exact dowserCloseTaken_acts _ h | exact selectInserted_acts _ h

theorem insertOrder_acts {r0 : Run} (x : OrderEntry) (h : Acts e true obs r0 r) :
    Acts e true obs r0 (insertOrder x e r) := handInsertion_acts _ (h.takeOrder _)

theorem passOrder_acts {r0 : Run} (d : DeskOrder) (h : Acts e true obs r0 r) :
    Acts e true obs r0 (passOrder d e r) := by
  have h1 := supersede_acts d.station d.order.family h
  unfold passOrder handDeskOrder; split
  all_goals first
    | exact h1 | exact startTaken_acts rfl _ h1 | exact stopTaken_acts rfl _ h1
    | exact lampDownTaken_acts _ h1 | exact dowserCloseTaken_acts _ h1 | exact deskSelect_acts _ _ h1

theorem countPosition_acts {r0 : Run} (v : Vector Bool 8) (p : Fin 8) (h : Acts e true obs r0 r) :
    Acts e true obs r0 (countPosition e v r p) := by
  unfold countPosition; dsimp only
  refine ((countDwell_acts p h).lamp _ _).motion rfl _ _ (fun m hm => ?_)
  have h1 : m.countRunup.countStop.sound := by
    unfold MotionRec.countStop MotionRec.countRunup; repeat' split
    all_goals exact hm
  split
  · exact ⟨h1.1, h1.2.1, Nat.min_le_left _ _⟩
  · exact h1

theorem countSweep_acts {r0 : Run} (v : Vector Bool 8) (h : Acts e true obs r0 r) :
    Acts e true obs r0 (countSweep e v r) :=
  countGap_acts (foldl_acts (fun _ c h => countSwitch_acts c (countHold_acts c h)) _
    (foldl_acts (fun _ p h => countPosition_acts v p h) _ h))

theorem sweepEnd_acts {r0 : Run} (v : Vector Bool 8) (h : Acts e true obs r0 r) :
    Acts e true obs r0 (sweepEnd e v r) := (countSweep_acts v h).hand _ (fun _ _ => .inl rfl)

/-! ### Requests -/

theorem reqDefinePosition_moves (a b c d : Byte) (s : State) :
    RunMove s.run (reqDefinePosition a b c d s).state.run := by
  unfold reqDefinePosition; repeat' split
  all_goals first
    | exact .same s.env _ | exact act_moves s.run rfl (redefinePosition_acts _ _ _ .refl)

theorem reqDefineChain_moves (a b c d f : Byte) (s : State) :
    RunMove s.run (reqDefineChain a b c d f s).state.run := by
  unfold reqDefineChain; repeat' split
  all_goals first
    | exact .same s.env _ | exact act_moves s.run rfl (redefineChain_acts _ _ _ .refl)

theorem reqSetChainMode_moves (a b c d f : Byte) (s : State) :
    RunMove s.run (reqSetChainMode a b c d f s).state.run := by
  unfold reqSetChainMode; split
  · exact act_moves s.run rfl (changeMode_acts _ _ _ .refl)
  · exact .same s.env _

theorem writeCue_moves (g : Fin 32) (i : Fin 8) (x : Option Cue) (s : State) :
    RunMove s.run (writeCue g i x s).state.run :=
  act_moves s.run rfl (cursorRewritten_acts _ _ .refl)

theorem reqLoadCue_moves (a : Byte) (x : Vector Byte 9) (s : State) :
    RunMove s.run (reqLoadCue a x s).state.run := by
  unfold reqLoadCue; dsimp only; repeat' split
  all_goals first | exact .same s.env _ | exact writeCue_moves ..

theorem reqClearPage_moves (a : Byte) (s : State) : RunMove s.run (reqClearPage a s).state.run := by
  unfold reqClearPage; dsimp only; repeat' split
  all_goals first | exact .same s.env _ | exact act_moves s.run rfl (cursorRewritten_acts _ _ .refl)

theorem reqMapPage_moves (a b c : Byte) (s : State) : RunMove s.run (reqMapPage a b c s).state.run := by
  unfold reqMapPage; repeat' split
  all_goals first | exact .same s.env _ | exact act_moves s.run rfl (remapped_acts _ .refl)

theorem reqSetReel_moves (a b : Byte) (v : Int) (s : State) : RunMove s.run (reqSetReel a b v s).state.run := by
  unfold reqSetReel; dsimp only; repeat' split
  all_goals first | exact .same s.env _ | exact act_moves s.run rfl (evaluateRunout_acts _ _ .refl)

theorem reqSetPosition_moves (a : Byte) (v : Int) (s : State) :
    RunMove s.run (reqSetPosition a v s).state.run := by
  unfold reqSetPosition; repeat' split
  all_goals first
    | exact .same s.env _
    | (rename_i h _; exact act_moves s.run rfl (placePosition_acts _ _ (by simp_all) .refl))

theorem reqRestartCues_moves (a : Byte) (s : State) : RunMove s.run (reqRestartCues a s).state.run := by
  unfold reqRestartCues; repeat' split
  all_goals first | exact .same s.env _ | exact act_moves s.run rfl (remapped_acts _ .refl)

theorem reqTakeAlarm_moves (s : State) : RunMove s.run (reqTakeAlarm s).state.run := by
  unfold reqTakeAlarm; split
  · exact .same s.env _
  · rename_i h; exact .taken _ h

theorem reqReleaseAlarm_moves (s : State) : RunMove s.run (reqReleaseAlarm s).state.run := by
  unfold reqReleaseAlarm; split
  · exact .same s.env _
  · rename_i h; exact .released _ _ h

/-- A request that changes no run-time state. -/
theorem moves_of_eq {s t : State} (h : t.run = s.run) : RunMove s.run t.run := h ▸ .same s.env _

theorem reqReadPosition_run (a b : Byte) (s : State) : (reqReadPosition a b s).state = s := by
  unfold reqReadPosition; split <;> rfl
theorem reqReadChain_run (a : Byte) (s : State) : (reqReadChain a s).state = s := by
  unfold reqReadChain; split <;> rfl
theorem reqReadCue_run (a b : Byte) (s : State) : (reqReadCue a b s).state = s := by
  unfold reqReadCue; split <;> rfl
theorem reqReadReel_run (a : Byte) (s : State) : (reqReadReel a s).state = s := by
  unfold reqReadReel; split <;> rfl
theorem reqReadScreen_run (a : Byte) (s : State) : (reqReadScreen a s).state = s := by
  unfold reqReadScreen; split <;> rfl
theorem reqReadRule_run (a : Byte) (s : State) : (reqReadRule a s).state = s := by
  unfold reqReadRule; split <;> rfl
theorem reqReadParam_run (a : Byte) (s : State) : (reqReadParam a s).state = s := by
  unfold reqReadParam; split <;> rfl
theorem reqReadAlarms_run (a b : Byte) (s : State) : (reqReadAlarms a b s).state = s := by
  unfold reqReadAlarms; repeat' split
  all_goals rfl
theorem reqSetScreen_run (a b c d f : Byte) (s : State) : (reqSetScreen a b c d f s).state.run = s.run := by
  unfold reqSetScreen; split <;> rfl
theorem reqSetParam_run (a : Byte) (v : Nat) (s : State) : (reqSetParam a v s).state.run = s.run := by
  unfold reqSetParam; repeat' split
  all_goals rfl
theorem reqSetAlarmEnables_run (a : Byte) (m : BitVec 16) (s : State) :
    (reqSetAlarmEnables a m s).state.run = s.run := by
  unfold reqSetAlarmEnables; split <;> rfl
theorem reqSetRule_moves (a : Byte) (x : Vector Byte 5) (s : State) :
    RunMove s.run (reqSetRule a x s).state.run := by
  unfold reqSetRule clearRuleCounters; split
  · exact .acts s.env (Acts.refl.counters _)
  · exact .same s.env _

theorem answerManage_moves (m : Payload) (s : State) : RunMove s.run (answerManage m s).state.run := by
  unfold answerManage; split
  · rename_i q _
    cases q with
    | definePosition => exact reqDefinePosition_moves ..
    | readPosition => exact moves_of_eq (congrArg State.run (reqReadPosition_run ..))
    | defineChain => exact reqDefineChain_moves ..
    | setChainMode => exact reqSetChainMode_moves ..
    | readChain => exact moves_of_eq (congrArg State.run (reqReadChain_run ..))
    | loadCue => exact reqLoadCue_moves ..
    | readCue => exact moves_of_eq (congrArg State.run (reqReadCue_run ..))
    | clearPage => exact reqClearPage_moves ..
    | mapPage => exact reqMapPage_moves ..
    | setReel => exact reqSetReel_moves ..
    | readReel => exact moves_of_eq (congrArg State.run (reqReadReel_run ..))
    | setPosition => exact reqSetPosition_moves ..
    | restartCues => exact reqRestartCues_moves ..
    | setScreen => exact moves_of_eq (reqSetScreen_run ..)
    | readScreen => exact moves_of_eq (congrArg State.run (reqReadScreen_run ..))
    | setRule => exact reqSetRule_moves ..
    | readRule => exact moves_of_eq (congrArg State.run (reqReadRule_run ..))
    | takeAlarm => exact reqTakeAlarm_moves ..
    | releaseAlarm => exact reqReleaseAlarm_moves ..
    | setAlarmEnables => exact moves_of_eq (reqSetAlarmEnables_run ..)
    | readAlarms => exact moves_of_eq (congrArg State.run (reqReadAlarms_run ..))
    | setParam => exact moves_of_eq (reqSetParam_run ..)
    | readParam => exact moves_of_eq (congrArg State.run (reqReadParam_run ..))
    | resetPart => exact .reset
  · exact .same s.env _

/-! ### Cells -/

theorem offerOrder_acts (v : Cell) (s : State) {r0 : Run} (h : Acts s.env true true r0 s.run) :
    Acts s.env true true r0 (offerOrder v s).state.run := by
  unfold offerOrder; split
  · exact drain_acts rfl (insertOrder_acts _ h)
  · exact h

theorem takeDeskOrder_moves (c : Cell) (d : DeskOrder) (s : State) :
    RunMove s.run (takeDeskOrder c d s).state.run := by
  unfold takeDeskOrder; split
  · exact .acts s.env (offerOrder_acts _ (s.act _) (drain_acts rfl (Acts.refl.notice _)))
  · exact .acts s.env (offerOrder_acts _ (s.act _) (drain_acts rfl (strikeRequest_acts _ _ .refl)))
  · exact act_moves s.run rfl (passOrder_acts _ .refl)

theorem takeHead_moves (m : Payload) (s : State) : RunMove s.run (takeHead m s).run := by
  unfold takeHead; dsimp only; split
  · exact .acts _ (regain_acts rfl .refl)
  · exact .same s.env _

theorem deliverState_moves (p : Fin 8) (m : Payload) (s : State) :
    RunMove s.run (deliverState p m s).run := by
  unfold deliverState
  exact act_moves s.run rfl (takeReport_acts rfl _ _ _ .refl)

theorem takeState_moves (c : Cell) (s : State) : RunMove s.run (takeState c s).run := by
  unfold takeState; split
  · split
    · exact .same s.env _
    · exact deliverState_moves ..
  · exact .same s.env _

theorem deliverMux_moves (c : Fin 4) (i : Input) (s : State) : RunMove s.run (deliverMux c i s).run := by
  unfold deliverMux
  exact act_moves s.run rfl (takeMux_acts rfl _ _ .refl)

theorem takeMuxCell_moves (c : Cell) (s : State) : RunMove s.run (takeMuxCell c s).run := by
  unfold takeMuxCell; split
  · split
    · exact .same s.env _
    · exact deliverMux_moves ..
  · exact .same s.env _

theorem offerNotice_moves (v : Cell) (s : State) : RunMove s.run (offerNotice v s).state.run := by
  unfold offerNotice; repeat' split
  · exact .noted _
  · rename_i h; exact .written _ _ h
  · exact .same s.env _

theorem takeTail_moves (s : State) : RunMove s.run (takeTail s).run :=
  .acts s.env (drain_acts rfl (sweepEnd_acts _ .refl))

theorem passage_moves (l : Leg) (c : Cell) (s : State) : RunMove s.run (passage l c s).state.run := by
  have same : RunMove s.run s.run := .same s.env _
  have head := takeHead_moves c.payload s
  unfold passage takeCell takeOutbound takeReturn takeUnlocked takeManage takeOrder
  repeat' split
  all_goals first
    | exact same | exact head | exact answerManage_moves .. | exact takeDeskOrder_moves ..
    | exact .acts s.env (offerOrder_acts _ s .refl) | exact takeState_moves .. | exact takeMuxCell_moves ..
    | exact offerNotice_moves .. | exact takeTail_moves ..

theorem receive_moves (l : Leg) (c : Cell) (s : State) : RunMove s.run (receive l c s).run := by
  unfold receive; split
  · exact passage_moves l c s
  · exact .same s.env _

/-! ### Events and resets -/

theorem event_moves {count act : Env → Run → Run} {due : Env → Run → Bool} {s : State}
    (h : Acts s.env true true s.run (act s.env (count s.env s.run))) :
    RunMove s.run (s.event count due act).run := by
  unfold State.event; split
  · exact .acts s.env (drain_acts rfl h)
  · exact .same s.env _

theorem loseLoop_moves (s : State) : RunMove s.run (loseLoop s).run :=
  .acts s.env (raiseChain_acts _ .refl)

theorem clockCycle_moves (s : State) : RunMove s.run (clockCycle s).run := by
  unfold clockCycle; repeat' split
  all_goals first | exact loseLoop_moves s | exact .same s.env _

theorem countMiss_sound (m : MotionRec) (h : m.sound) : m.countMiss.sound :=
  ⟨h.1, h.2.1, Nat.min_le_left _ _⟩
theorem countRunup_sound (m : MotionRec) (h : m.sound) : m.countRunup.sound := by
  unfold MotionRec.countRunup; split <;> exact h
theorem countStop_sound (m : MotionRec) (h : m.sound) : m.countStop.sound := by
  unfold MotionRec.countStop; split <;> exact h

/-- Every command answers a next state, reached by one of the moves. -/
theorem exec_moves (i : Instr) (s : State) : ∃ t, exec i s = .next t ∧ RunMove s.run t.run := by
  cases i <;> refine ⟨_, rfl, ?_⟩
  case missCountSilent =>
    exact event_moves (becomeSilent_acts rfl _ (Acts.refl.motion rfl _ _ countMiss_sound))
  case runupExpiry => exact event_moves (expireRunup_acts rfl _ (Acts.refl.motion rfl _ _ countRunup_sound))
  case stopExpiry => exact event_moves (expireStop_acts rfl _ (Acts.refl.motion rfl _ _ countStop_sound))
  case stallFlag => exact event_moves (countStall_acts rfl _ .refl)
  case stallBreak => exact event_moves (handIfChanged_acts _ _ (countStall_acts rfl _ .refl))
  case markRecognised => exact event_moves (takeCueReport_acts _ _ _ .refl)
  case settleExpiry => exact event_moves (expireSettle_acts _ (Acts.refl.lamp ..))
  case strikeExpiry => exact event_moves (expireStrike_acts _ (Acts.refl.lamp ..))
  case staggerGapExpiry => exact event_moves (expireGap_acts (countGap_acts .refl))
  case strikeGrant => exact event_moves (offerGrant_acts .refl)
  case dwellExpiry => exact event_moves (expireDwell_acts _ (countDwell_acts _ .refl))
  case holdExpiry => exact event_moves (expireHold_acts _ (countHold_acts _ .refl))
  case switchExpiry => exact event_moves (expireSwitch_acts _ (countSwitch_acts _ .refl))
  case ruleFire => exact event_moves (takeRuleReport_acts _ _ _ .refl)
  case silenceTimerExpiry =>
    unfold silenceExpires; split
    · exact loseLoop_moves s
    · exact .same s.env _
  case resetAssert => exact .same s.env _
  case resetRelease =>
    unfold resetReleased; dsimp only [judged_run]; split
    · exact .reset
    · exact .same s.env _
  case powerOn => exact .reset
  case lossOfSupply => exact .reset
  all_goals exact receive_moves _ _ s

/-- A step answers a next state, reached by one of the moves. -/
theorem step_moves (s : State) : ∃ t, step s = .next t ∧ RunMove s.run t.run := by
  unfold step; split
  · rename_i i rest _
    exact exec_moves i { s with pending := rest }
  · exact ⟨_, rfl, clockCycle_moves s⟩

end Sys2Proof.Machine
end

