-- ==== Sys2Proof/Laws/Cells.lean ====
section
/-! SUPPORT. What a cell comes to on each leg, said once for each state of the part: the cells the part
makes are valid, and `receive` is the passage of its kind with the contact judged afresh. -/

namespace Sys2Proof.Machine

/-! ### Cells the part makes (R1, R3) -/

@[simp] theorem make_kind? (k : CellKind) (st : Byte) (m : Payload) : (Cell.make k st m).kind? = some k := by
  cases k <;> rfl
@[simp] theorem make_station (k : CellKind) (st : Byte) (m : Payload) : (Cell.make k st m).station = st := rfl
@[simp] theorem make_payload (k : CellKind) (st : Byte) (m : Payload) : (Cell.make k st m).payload = m := rfl

@[simp] theorem make_valid (k : CellKind) (st : Byte) (m : Payload) : (Cell.make k st m).valid = true := by
  have h1 : (CellKind.ofCode (Cell.make k st m).kind).isSome = true := by cases k <;> rfl
  have h2 : ∀ x : Byte, (x + -x == 0) = true := fun x => beq_iff_eq.mpr (BitVec.add_right_neg x)
  unfold Cell.valid
  rw [h1, Bool.true_and]
  exact h2 _

@[simp] theorem stationOf_setWidth (x : Station) : stationOf (x.setWidth 8) = some x := by
  revert x; decide

theorem stationOf_eq_own {st : Byte} {x : Station} (h : stationOf st = some x) : st = x.setWidth 8 := by
  unfold stationOf at h
  split at h
  · rename_i hs
    obtain rfl := Option.some.inj h
    apply BitVec.eq_of_toNat_eq
    simp only [BitVec.toNat_setWidth]
    omega
  · simp at h

theorem void_eq : Cell.void = Cell.make .void 0 (Vector.replicate 13 0) := rfl

/-! ### What a leg shows, and the contact -/

@[simp] theorem leaves_out (o : Option Cell) (p : LoopPort) : p.leaves .outbound o = { p with loopOut := o } := rfl
@[simp] theorem leaves_ret (o : Option Cell) (p : LoopPort) : p.leaves .ret o = { p with loopRet := o } := rfl

/-- R3: a cell forwarded by a part whose contact is right. -/
theorem shows_of_right {s : State} (l : Leg) (c : Cell) (h : s.contactRight) :
    State.judged { s with port := s.port.leaves l (some c) } = s.shows l c := by
  have hc : s.port.contact = contactAsserted s.port s.run := h
  unfold State.judged State.shows
  cases l <;> simp only [leaves_out, leaves_ret]
  · rw [show contactAsserted { s.port with loopOut := some c } s.run = s.port.contact from hc.symm]
  · rw [show contactAsserted { s.port with loopRet := some c } s.run = s.port.contact from hc.symm]

/-- The part acts exactly when it is supplied, not held and LOCKED. -/
theorem acting_iff {p : LoopPort} :
    p.acting = true ↔ p.powered = true ∧ p.resetHeld = false ∧ p.monitor = .locked := by
  simp [LoopPort.acting, and_assoc]

/-! ### Cells that arrive -/

/-- A valid cell at a part that acts. -/
theorem receive_acting {s : State} (h : s.acting) (l : Leg) (k : CellKind) (st : Byte) (m : Payload) :
    receive l (Cell.make k st m) s =
      (let c := Cell.make k st m
       let x := match l with
         | .outbound => takeOutbound k c s
         | .ret => takeReturn k c s
       State.judged { x.state with port := x.state.port.leaves l (some x.out) }) := by
  obtain ⟨h1, h2, h3⟩ := acting_iff.1 h
  unfold receive passage takeCell
  rw [if_pos h1]
  cases l <;> simp [h2, h3]

/-- R1, R4: an invalid cell, and any cell while RESET is held. -/
theorem receive_ignored {s : State} (hp : s.port.powered = true) (hr : s.contactRight) (l : Leg) (c : Cell)
    (h : s.port.resetHeld = true ∨ c.valid = false) : receive l c s = s.shows l c := by
  have : passage l c s = forward c s := by
    unfold passage
    rcases h with h | h <;> simp [h]
  simp only [receive, hp, if_true, this, forward]
  exact shows_of_right l c hr

/-- R15: a cell other than an outbound HEAD in SEARCHING or LOST. -/
theorem receive_unlocked {s : State} (hp : s.port.powered = true) (hr : s.contactRight) (l : Leg) (c : Cell)
    (hm : s.port.monitor ≠ .locked) (hh : c.isOutboundHead l = false) : receive l c s = s.shows l c := by
  have : passage l c s = forward c s := by
    unfold passage
    split
    · rfl
    · split
      · rename_i k hk
        unfold takeCell takeUnlocked
        rw [if_neg hm]
        cases l <;> cases k <;> first | rfl | simp [Cell.isOutboundHead, hk] at hh
      · rfl
  simp only [receive, hp, if_true, this, forward]
  exact shows_of_right l c hr

/-- A cell whose passage forwards it and changes nothing. -/
theorem receive_forward {s : State} (h : s.acting) (hr : s.contactRight) (l : Leg) (k : CellKind) (st : Byte)
    (m : Payload)
    (hf : (match l with
      | .outbound => takeOutbound k (Cell.make k st m) s
      | .ret => takeReturn k (Cell.make k st m) s) = forward (Cell.make k st m) s) :
    receive l (Cell.make k st m) s = s.shows l (Cell.make k st m) := by
  rw [receive_acting h]
  dsimp only
  rw [hf]
  exact shows_of_right l _ hr

/-! ### Requests (R6, R163 to R165) -/

/-- R6: a request to a part that acts: its answer's state, with the REPLY in the cell's place. -/
theorem request_acting {s : State} (h : s.acting) (m : Payload) :
    request m s = .next (State.judged
      { (answerManage m s).state with
        port := { (answerManage m s).state.port with
          loopOut := some (replyCell m s (answerManage m s)) } }) := by
  unfold request
  rw [receive_acting h]
  simp [takeOutbound, takeManage]

/-- R164: the REPLY cell in the terms of the claims. -/
theorem replyCell_eq (m : Payload) (s : State) (a : Answer) (h1 : 1 ≤ m[0].toNat) (h2 : m[0].toNat ≤ 24) :
    replyCell m s a = s.replyCell m[0].toNat m[1] a.result.code a.data := by
  have key : ∀ (b : Byte) (r : Result), 1 ≤ b.toNat → b.toNat ≤ 24 →
      (echoedCode b ||| byteOf (32 * r.code)) = BitVec.ofNat 8 (b.toNat + 32 * r.code) := by
    intro b r; cases r <;> revert b <;> decide
  unfold replyCell State.replyCell replyPayload
  rw [key _ _ h1 h2]

/-- R165: a request refused with this result. -/
theorem request_refused {s : State} (h : s.acting) (hr : s.contactRight) (m : Payload) (why : Result)
    (h1 : 1 ≤ m[0].toNat) (h2 : m[0].toNat ≤ 24) (ha : answerManage m s = refuse why s) :
    request m s = .next (s.replies m[0].toNat m[1] why.code (Vector.replicate 10 0)) := by
  rw [request_acting h, ha, replyCell_eq m s _ h1 h2]
  exact congrArg _ (shows_of_right .outbound _ hr)

/-- R163: a request answered DONE that leaves a state whose contact is right. -/
theorem request_done {s u : State} (h : s.acting) (hr : u.contactRight) (m : Payload) (d : Vector Byte 10)
    (h1 : 1 ≤ m[0].toNat) (h2 : m[0].toNat ≤ 24) (ha : answerManage m s = answerDone d u)
    (ho : u.port.own = s.port.own) (hs : u.port.sweep = s.port.sweep) :
    request m s = .next (u.replies m[0].toNat m[1] 0 d) := by
  rw [request_acting h, ha, replyCell_eq m s _ h1 h2]
  have : s.replyCell m[0].toNat m[1] Result.done.code d = u.replyCell m[0].toNat m[1] 0 d := by
    unfold State.replyCell; rw [ho, hs]; rfl
  show Host.Outcome.next (State.judged { u with
    port := u.port.leaves .outbound (some (s.replyCell m[0].toNat m[1] Result.done.code d)) }) = _
  rw [this]
  exact congrArg _ (shows_of_right .outbound _ hr)

end Sys2Proof.Machine
end

