-- ==== Sys2Proof/Laws/Effects.lean ====
section
/-! SUPPORT. What an event row comes to, due or not; what an operation comes to that hands nothing on; what
the hand-offs can do to a motion record; and what a raise leaves, whatever follows it. -/

namespace Sys2Proof.Machine

/-! ### Event rows (log 4) -/

theorem event_due {s : State} {count : Env → Run → Run} {due : Env → Run → Bool} {f : Env → Run → Run}
    (h : s.acting) (hd : due s.env (count s.env s.run) = true) :
    s.event count due f = State.judged { s with run := drain s.env (f s.env (count s.env s.run)) } := by
  unfold State.event
  rw [if_pos (by simp [show s.port.acting = true from h, hd])]

theorem event_idle {s : State} {count : Env → Run → Run} {due : Env → Run → Bool} {f : Env → Run → Run}
    (h : s.port.acting = false ∨ due s.env (count s.env s.run) = false) : s.event count due f = s := by
  unfold State.event
  rw [if_neg (by rcases h with h | h <;> simp [h])]

/-! ### Operations that hand nothing on -/

theorem act_quiet {s : State} {f : Env → Run → Run} (h : (f s.env s.run).handoffs = []) :
    s.act f = { s with run := f s.env s.run } := by
  unfold State.act
  rw [drain_quiet h]

/-- The contact of a state whose slots are as before. -/
theorem judged_same_slots {s : State} {r : Run} (h : s.contactRight) (hs : r.slots = s.run.slots) :
    State.judged { s with run := r } = { s with run := r } := by
  refine judged_of_right ?_
  show s.port.contact = contactAsserted s.port r
  rw [show s.port.contact = contactAsserted s.port s.run from h]
  unfold contactAsserted majorStands severityOf
  rw [hs]

/-! ### What the hand-offs do to a motion record -/

section
variable {e : Env} {full obs : Bool} {r0 r : Run}

/-- What a timer's expiry or a SILENT leaves of a motion record. -/
def Aged (a b : MotionRec) : Prop :=
  b.lastCount = a.lastCount ∧ b.value = a.value ∧ b.referenced = a.referenced ∧ b.miss = a.miss
    ∧ b.resyncDue = a.resyncDue ∧ b.signals = a.signals ∧ (a.silent = true → b.silent = true)

theorem Aged.refl (m : MotionRec) : Aged m m := ⟨rfl, rfl, rfl, rfl, rfl, rfl, id⟩

theorem Aged.trans {a b c : MotionRec} (h : Aged a b) (g : Aged b c) : Aged a c :=
  ⟨g.1.trans h.1, g.2.1.trans h.2.1, g.2.2.1.trans h.2.2.1, g.2.2.2.1.trans h.2.2.2.1,
    g.2.2.2.2.1.trans h.2.2.2.2.1, g.2.2.2.2.2.1.trans h.2.2.2.2.2.1, g.2.2.2.2.2.2 ∘ h.2.2.2.2.2.2⟩

@[simp] theorem handChange_motions (p : Fin 8) (moved : Bool) : (handChange e p moved r).motions = r.motions := rfl
@[simp] theorem raisePosition_motions (k : Fin 82) (p : Fin 8) : (raisePosition e k p r).motions = r.motions := by
  unfold raisePosition; simp
@[simp] theorem raiseChain_motions (k : Fin 82) : (raiseChain e k r).motions = r.motions := by
  unfold raiseChain; simp
@[simp] theorem queueFor_motions (p : Fin 8) (o : Order) : (queueFor e p o r).motions = r.motions := by
  unfold queueFor; split <;> rfl

theorem takeHandoff_aged (x : Handoff) (q : Fin 8) :
    Aged (r.motions.get q) ((takeHandoff e x r).motions.get q) := by
  by_cases hb : x.block = .motion
  · cases x <;> simp [Handoff.block] at hb
    · simp only [takeHandoff, becomeSilent]; split
      · simp only [handChange_motions, Run.hand_motions, raisePosition_motions, Run.modMotion_get]
        split
        · rename_i h; subst h; exact ⟨rfl, rfl, rfl, rfl, rfl, rfl, fun _ => rfl⟩
        · exact .refl _
      · exact .refl _
    · simp only [takeHandoff, expireRunup]; split
      · simp only [handChange_motions, Run.hand_motions, Run.modMotion_get, queueFor_motions, raisePosition_motions]
        split
        · rename_i h; subst h; exact ⟨rfl, rfl, rfl, rfl, rfl, rfl, id⟩
        · exact .refl _
      · exact .refl _
    · simp only [takeHandoff, expireStop]; split
      · simp only [raisePosition_motions, Run.modMotion_get]
        split
        · rename_i h; subst h; exact ⟨rfl, rfl, rfl, rfl, rfl, rfl, id⟩
        · exact .refl _
      · exact .refl _
  · have h : Acts e false true r (takeHandoff e x r) := takeHandoff_acts x (.inr hb) .refl
    rw [h.motions]; exact .refl _

theorem drainFor_aged (n : Nat) (q : Fin 8) : Aged (r.motions.get q) ((drainFor e n r).motions.get q) := by
  induction n generalizing r with
  | zero => exact .refl _
  | succ n ih =>
    unfold drainFor; split
    · exact .refl _
    · rename_i x r1 heq
      have hm : r1.motions = r.motions := by obtain ⟨_, _, _, rfl⟩ := pickHandoff_eq heq; rfl
      have h := takeHandoff_aged (e := e) (r := r1) x q
      rw [hm] at h
      exact h.trans ih

/-- Taking every hand-off ages a motion record and does no more to it. -/
theorem drain_aged (q : Fin 8) : Aged (r.motions.get q) ((drain e r).motions.get q) := drainFor_aged _ q

/-! ### A raise, and whatever follows -/

/-- A slot of a class that is off stays as it was. -/
theorem Acts.slot_off (h : Acts e full obs r0 r) (k : Fin 82) (hk : e.setup.enables.get (classOf k) = false) :
    r.slots.get k = r0.slots.get k := by
  induction h with
  | refl => rfl
  | raise j v x hx _ ih =>
    rw [raise_slot, if_neg]
    · exact ih
    · rintro ⟨rfl, h⟩; simp [hk] at h
  | notice b _ ih =>
    unfold queueNotice
    split
    · exact ih
    · unfold raiseChain
      rw [raise_slot, if_neg]
      · exact ih
      · rintro ⟨rfl, h⟩; simp [hk] at h
  | pick x hp _ ih => obtain ⟨_, _, _, rfl⟩ := pickHandoff_eq hp; exact ih
  | _ => assumption

/-- Where a slot is raised and the blocks then act, it has been raised as R151 says. -/
theorem raisedIn_of {s t : State} {k : Fin 82} {v : Option Int} {x : Option (Fin 16 × Severity)} {r1 : Run}
    (hslot : r1.slots.get k = s.run.slots.get k)
    (ht : Acts s.env full obs (raise s.env k v x r1) t.run) : RaisedIn s t k v := by
  have hr := raise_slot (e := s.env) (r := r1) k k v x
  have he : s.env.setup.enables = s.setup.enables := rfl
  unfold RaisedIn
  dsimp only
  split
  · rename_i hen
    rw [he, if_pos ⟨rfl, hen⟩, hslot] at hr
    by_cases hp : (s.run.slots.get k).pending = true
    · have := ht.slot_keeps (k := k) (P := fun y => y.pending = true ∧ y.repeated = true
        ∧ y.noticed = (s.run.slots.get k).noticed ∧ y.sweep = (s.run.slots.get k).sweep
        ∧ y.value = (s.run.slots.get k).value ∧ y.underService = (s.run.slots.get k).underService)
        (fun w v x y _ hy => by simp [Slot.raised, hy.1, hy.2]) (by rw [hr]; simp [Slot.raised, hp])
      exact ⟨this.1, fun h => by simp [hp] at h,
        fun _ => ⟨this.2.1, this.2.2.1, this.2.2.2.1, this.2.2.2.2.1⟩, this.2.2.2.2.2⟩
    · have := ht.slot_keeps (k := k) (P := fun y => y.pending = true
        ∧ y.noticed = false ∧ y.sweep = some s.port.sweep
        ∧ y.value = v ∧ y.underService = (s.run.slots.get k).underService)
        (fun w v x y _ hy => by simp [Slot.raised, hy.1, hy.2])
        (by rw [hr]; simp [Slot.raised, hp]; rfl)
      exact ⟨this.1, fun _ => ⟨this.2.1, this.2.2.1, this.2.2.2.1⟩, fun h => absurd h hp, this.2.2.2.2⟩
  · rename_i hen
    have hoff : s.env.setup.enables.get (classOf k) = false := by rw [he]; simpa using hen
    rw [ht.slot_off k hoff, hr, if_neg (by rintro ⟨_, h⟩; simp [hoff] at h), hslot]

end

end Sys2Proof.Machine
end

