-- ==== Sys2Proof/Laws/PerInstr.lean ====
section
/-! SUPPORT. Statements made of every command, one lemma for each. -/

namespace Sys2Proof.Laws.Checks

/-- A command is well-formed, but for three rows, each ill-formed for the one reason its rule gives: an
INVALID_CELL that is valid (R1), an UNKNOWN_REQUEST with a code a block owns (R163), a
CELL_IN_SEARCHING_OR_LOST that is invalid or an outbound HEAD (R15). -/
def Statement (i : Instr) : Prop :=
  i.wellFormed = true
    ∨ (∃ l c, i = .invalidCell l c ∧ c.valid = true)
    ∨ (∃ code tag x, i = .unknownRequest code tag x ∧ unknownCode code = false)
    ∨ ∃ l c, i = .cellInSearchingOrLost l c ∧ (c.valid = false ∨ c.isOutboundHead l = true)

theorem invalidCell (leg : Leg) (cell : Cell) : Statement (.invalidCell leg cell) := by
  cases h : cell.valid
  · exact .inl (by simp [Instr.wellFormed, h])
  · exact .inr (.inl ⟨leg, cell, rfl, h⟩)
theorem outboundHead (station : Byte) (payload : Payload) : Statement (.outboundHead station payload) :=
  .inl rfl
theorem outboundOrder (station : Byte) (payload : Payload) : Statement (.outboundOrder station payload) :=
  .inl rfl
theorem outboundVoid (station : Byte) (payload : Payload) : Statement (.outboundVoid station payload) :=
  .inl rfl
theorem outboundPassthrough (kind : OutboundPassKind) (station : Byte) (payload : Payload) : Statement (.outboundPassthrough kind station payload) :=
  .inl rfl
theorem returnPassthrough (kind : ReturnPassKind) (station : Byte) (payload : Payload) : Statement (.returnPassthrough kind station payload) :=
  .inl rfl
theorem returnState (station : Byte) (payload : Payload) : Statement (.returnState station payload) :=
  .inl rfl
theorem returnMux (station : Byte) (payload : Payload) : Statement (.returnMux station payload) := .inl rfl
theorem returnVoid (station : Byte) (payload : Payload) : Statement (.returnVoid station payload) :=
  .inl rfl
theorem sweepEnd (station : Byte) (payload : Payload) : Statement (.sweepEnd station payload) := .inl rfl
theorem missCountSilent (position : Fin 8) : Statement (.missCountSilent position) := .inl rfl
theorem runupExpiry (position : Fin 8) : Statement (.runupExpiry position) := .inl rfl
theorem stopExpiry (position : Fin 8) : Statement (.stopExpiry position) := .inl rfl
theorem stallFlag (position : Fin 8) : Statement (.stallFlag position) := .inl rfl
theorem stallBreak (position : Fin 8) : Statement (.stallBreak position) := .inl rfl
theorem markRecognised (position : Fin 8) : Statement (.markRecognised position) := .inl rfl
theorem settleExpiry (position : Fin 8) : Statement (.settleExpiry position) := .inl rfl
theorem strikeExpiry (position : Fin 8) : Statement (.strikeExpiry position) := .inl rfl
theorem staggerGapExpiry : Statement .staggerGapExpiry := .inl rfl
theorem strikeGrant : Statement .strikeGrant := .inl rfl
theorem dwellExpiry (position : Fin 8) : Statement (.dwellExpiry position) := .inl rfl
theorem holdExpiry (chain : Fin 4) : Statement (.holdExpiry chain) := .inl rfl
theorem switchExpiry (chain : Fin 4) : Statement (.switchExpiry chain) := .inl rfl
theorem ruleFire (position : Fin 8) (signals : Byte) : Statement (.ruleFire position signals) := .inl rfl
theorem silenceTimerExpiry : Statement .silenceTimerExpiry := .inl rfl
theorem resetAssert : Statement .resetAssert := .inl rfl
theorem resetRelease (straps : BitVec 6) : Statement (.resetRelease straps) := .inl rfl
theorem powerOn (straps : BitVec 6) : Statement (.powerOn straps) := .inl rfl
theorem outboundManage (station : Byte) (payload : Payload) : Statement (.outboundManage station payload) :=
  .inl rfl
theorem unknownRequest (code tag : Byte) (parameters : Vector Byte 11) : Statement (.unknownRequest code tag parameters) := by
  cases h : unknownCode code
  · exact .inr (.inr (.inl ⟨code, tag, parameters, rfl, h⟩))
  · exact .inl h
theorem definePosition (tag position station gauge rate : Byte) : Statement (.definePosition tag position station gauge rate) :=
  .inl rfl
theorem readPosition (tag position view : Byte) : Statement (.readPosition tag position view) := .inl rfl
theorem defineChain (tag chain station port0 port1 caption : Byte) : Statement (.defineChain tag chain station port0 port1 caption) :=
  .inl rfl
theorem setChainMode (tag chain mode holdLimit switchLimit runoutGuard : Byte) : Statement (.setChainMode tag chain mode holdLimit switchLimit runoutGuard) :=
  .inl rfl
theorem readChain (tag chain : Byte) : Statement (.readChain tag chain) := .inl rfl
theorem loadCue (tag pageRecord : Byte) (record : Vector Byte 9) : Statement (.loadCue tag pageRecord record) :=
  .inl rfl
theorem readCue (tag page record : Byte) : Statement (.readCue tag page record) := .inl rfl
theorem clearPage (tag page : Byte) : Statement (.clearPage tag page) := .inl rfl
theorem mapPage (tag position slot page : Byte) : Statement (.mapPage tag position slot page) := .inl rfl
theorem setReel (tag position flags : Byte) (lastPicture : Word24) : Statement (.setReel tag position flags lastPicture) :=
  .inl rfl
theorem readReel (tag position : Byte) : Statement (.readReel tag position) := .inl rfl
theorem setPosition (tag position : Byte) (value : Word24) : Statement (.setPosition tag position value) :=
  .inl rfl
theorem restartCues (tag position : Byte) : Statement (.restartCues tag position) := .inl rfl
theorem setScreen (tag kind onAir next idle faulted : Byte) : Statement (.setScreen tag kind onAir next idle faulted) :=
  .inl rfl
theorem readScreen (tag kind : Byte) : Statement (.readScreen tag kind) := .inl rfl
theorem setRule (tag rule : Byte) (record : Vector Byte 5) : Statement (.setRule tag rule record) :=
  .inl rfl
theorem readRule (tag rule : Byte) : Statement (.readRule tag rule) := .inl rfl
theorem takeAlarm (tag : Byte) : Statement (.takeAlarm tag) := .inl rfl
theorem releaseAlarm (tag : Byte) : Statement (.releaseAlarm tag) := .inl rfl
theorem setAlarmEnables (tag mode : Byte) (mask : BitVec 16) : Statement (.setAlarmEnables tag mode mask) :=
  .inl rfl
theorem readAlarms (tag group position : Byte) : Statement (.readAlarms tag group position) := .inl rfl
theorem setParam (tag code : Byte) (value : BitVec 16) : Statement (.setParam tag code value) := .inl rfl
theorem readParam (tag code : Byte) : Statement (.readParam tag code) := .inl rfl
theorem resetPart (tag : Byte) : Statement (.resetPart tag) := .inl rfl
theorem cellInSearchingOrLost (leg : Leg) (cell : Cell) : Statement (.cellInSearchingOrLost leg cell) := by
  cases h : cell.valid
  · exact .inr (.inr (.inr ⟨leg, cell, rfl, .inl h⟩))
  · cases g : cell.isOutboundHead leg
    · exact .inl (by simp [Instr.wellFormed, h, g])
    · exact .inr (.inr (.inr ⟨leg, cell, rfl, .inr g⟩))
theorem lossOfSupply : Statement .lossOfSupply := .inl rfl

end Sys2Proof.Laws.Checks
end

