-- ==== Sys2Proof/Tests/Slice0.lean ====
section
/-! SUPPORT. The model's own tests: ill-formed commands refused by the well-formedness check, and for each
statement of Obligations.lean a small concrete state and operands that meet its hypotheses, with what the
command then does there. -/

open Sys2Proof Sys2Proof.Machine

namespace Sys2Proof.Tests

/-! ### Helpers -/

/-- The next state of an outcome. -/
def after : Host.Outcome State Fault Refusal → Option State
  | .next t => some t
  | .fault _ | .refused _ => none

/-- Whether an outcome's next state shows this. -/
def shows (o : Host.Outcome State Fault Refusal) (f : State → Bool) : Bool := (after o).any f

def nil13 : Payload := Vector.replicate 13 0

/-- A payload that begins with these octets. -/
def load (a b c : Byte) : Payload := payload13 a b c

/-- A LOCKED part with own station 40: positions 0 to 2 at stations 10 to 12, chain 0 at station 20 with
positions 0 and 1 at its ports, its pair valid. The schedule decides every open order (log 1). -/
def area : State :=
  { State.reset with
    port := { State.reset.port with own := 40, straps := 40, monitor := .locked, silence := some 0, sweep := 9 }
    setup := { State.reset.setup with
      positions := #v[some ⟨10, .mm35, .fps24⟩, some ⟨11, .mm35, .fps24⟩, some ⟨12, .mm16, .fps25⟩,
        none, none, none, none, none]
      chains := #v[some ⟨20, some 0, some 1, true⟩, none, none, none]
      modes := State.reset.setup.modes.set 0 { State.reset.setup.modes.get 0 with armed := true } }
    run := { State.reset.run with schedule := List.replicate 40 0 } }

def onRun (f : Run → Run) (s : State) : State := { s with run := f s.run }
def motion (p : Fin 8) (f : MotionRec → MotionRec) (s : State) : State := onRun (Run.modMotion p f) s
def lamp (p : Fin 8) (f : LampRec → LampRec) (s : State) : State := onRun (Run.modLamp p f) s
def scan (p : Fin 8) (f : ScanRec → ScanRec) (s : State) : State := onRun (Run.modScan p f) s
def chain (c : Fin 4) (f : ChainRec → ChainRec) (s : State) : State := onRun (Run.modChain c f) s
def slot (k : Fin 82) (f : Slot → Slot) (s : State) : State := onRun (Run.modSlot k f) s
def orders (q : List OrderEntry) (s : State) : State := onRun (fun r => { r with orders := q }) s
def withParams (f : Params → Params) (s : State) : State :=
  { s with setup := { s.setup with params := f s.setup.params } }

/-- What most statements ask of a state. -/
abbrev ready (s : State) : Prop := s.acting ∧ s.contactRight ∧ s.quiet

/-! ### Well-formedness: each check refuses -/

theorem test_wf_valid_cell_is_no_invalid_cell :
    Instr.wellFormed (.invalidCell .outbound (Cell.make .void 0 nil13)) = false := by decide
theorem test_wf_owned_code_is_no_unknown_request :
    Instr.wellFormed (.unknownRequest 5 1 (Vector.replicate 11 0)) = false := by decide
theorem test_wf_invalid_cell_not_in_searching :
    Instr.wellFormed (.cellInSearchingOrLost .ret ⟨10, 0, nil13, 0⟩) = false := by decide
theorem test_wf_head_not_in_searching :
    Instr.wellFormed (.cellInSearchingOrLost .outbound (Cell.make .head 0 nil13)) = false := by decide
theorem test_wf_accepts :
    Instr.wellFormed (.invalidCell .ret ⟨10, 0, nil13, 0⟩) = true
      ∧ Instr.wellFormed (.unknownRequest 25 1 (Vector.replicate 11 0)) = true
      ∧ Instr.wellFormed (.cellInSearchingOrLost .ret (Cell.make .head 0 nil13)) = true := by decide

/-- No table row gives bits: no word spells a command, and the machine is left as it was. -/
theorem test_no_table_words : decodeTableWord 8 1 = none ∧ State.reset.withFetchWord 8 1 = State.reset := by
  decide

/-! ### The machine -/

theorem test_step_runs_front :
    shows (step { area with pending := [.resetAssert, .powerOn 3] })
      (fun t => t.pending == [.powerOn 3] && t.port.resetHeld) = true := by decide

/-- The queue is empty, the timer one short of its limit, and at 0; and in a part that is not LOCKED. -/
theorem test_silence_last_cycle :
    let s := { area with port := { area.port with silence := some 99999 } }
    s.acting ∧ s.pending = [] ∧ shows (step s) (fun t => t.port.monitor == .lost && t.port.contact
      && (t.run.slots.get 0).pending) = true := by decide
theorem test_silence_counts_and_idles :
    area.acting ∧ shows (step area) (fun t => t.port.silence == some 1) = true
      ∧ State.reset.port.acting = false ∧ after (step State.reset) = some State.reset := by decide

/-! ### Invariants: their premises hold in a state that is not reset's -/

/-- An area with a page mapped, two orders, a notice, and an alarm under service with another pending. -/
def busyArea : State :=
  let s := { area with
    setup := { area.setup with
      reels := area.setup.reels.set 0 { slots := #v[some 3, none, none, none], lastPicture := some 90 }
      rules := area.setup.rules.set 2 { Rule.initial with active := true, positions := 1, mask := 8 } } }
  let r := { s.run with
    orders := [⟨10, .stop⟩, ⟨10, .lampDown⟩], notices := [⟨4, .clear 0 .brk⟩], stack := [19] }
  (slot 20 (fun x => { x with pending := true }) (slot 19 (fun x => { x with underService := true })
    { s with run := r })).judged

theorem test_invariants_busy :
    busyArea.contactRight ∧ busyArea.quiet ∧ OrdersSingle busyArea.run.orders ∧ NoticesBounded busyArea.run
      ∧ SettingsInRange busyArea.setup ∧ CountsInRange busyArea.run := by decide
theorem test_invariants_busy_stack : StackSound busyArea.run := by decide
theorem test_invariants_busy_definitions :
    StationsSingle busyArea.port.own busyArea.setup ∧ PortsSingle busyArea.setup
      ∧ PagesSingle busyArea.setup := by
  refine ⟨by decide, by decide, by decide⟩

/-- SetupHolds and LadderChangesByRequestOnly speak of a command that is neither. -/
theorem test_setup_and_ladder_hold :
    resetsPart (.sweepEnd 0 nil13) = false ∧ writesSetup (.sweepEnd 0 nil13) = false
      ∧ shows (exec (.sweepEnd 0 nil13) busyArea)
          (fun t => t.setup == busyArea.setup && t.run.stack == [19]) = true := by decide

/-- The premises on a row; a row that carries a request to a part that is not LOCKED. -/
theorem test_rows_as_listed :
    Instr.wellFormed (.sweepEnd 0 nil13) = true
      ∧ Instr.wellFormed (.unknownRequest 25 0 (Vector.replicate 11 0)) = true
      ∧ State.reset.port.monitor ≠ .locked
      ∧ Instr.wellFormed (.cellInSearchingOrLost .outbound (Cell.make .manage 63 (load 18 0 0))) = true
      ∧ resetsPart (.cellInSearchingOrLost .outbound (Cell.make .manage 63 (load 18 0 0))) = false := by decide

/-- The senses of CountsKept: one lamp STRIKING, one QUEUED, a cursor at the end of its list. -/
theorem test_invariants_busy_counts :
    let s := scan 0 (fun x => { x with cursor := 8 }) (onRun (Run.joinStrike ⟨1, .urgent⟩)
      (onRun (Run.setGate (.striking 2)) (lamp 1 (fun l => { l with lamp := .queued })
        (lamp 2 (fun l => { l with lamp := .striking }) busyArea))))
    CountsInRange s.run ∧ CursorsInRange s.setup s.run ∧ StrikesSound s.run
      ∧ listLength s.setup 0 = 8 ∧ listLength s.setup 1 = 0 := by decide

/-! ### Cells, RESET and the supply -/

theorem test_invalid_cell : area.port.powered = true ∧ area.contactRight
    ∧ (⟨7, 40, nil13, 0⟩ : Cell).valid = false
    ∧ after (exec (.invalidCell .outbound ⟨7, 40, nil13, 0⟩) area)
      = some (area.shows .outbound ⟨7, 40, nil13, 0⟩) := by decide

theorem test_cell_in_searching : State.reset.port.powered = true ∧ State.reset.contactRight
    ∧ State.reset.port.monitor ≠ .locked ∧ (Cell.make .tail 0 nil13).isOutboundHead .ret = false
    ∧ after (exec (.cellInSearchingOrLost .ret (Cell.make .tail 0 nil13)) State.reset)
      = some (State.reset.shows .ret (Cell.make .tail 0 nil13)) := by decide

theorem test_cell_while_held :
    let s := (resetAsserted area)
    s.port.powered = true ∧ s.contactRight ∧ s.port.resetHeld = true
      ∧ arrives (.outboundManage 40 (load 24 0 0)) = some (.outbound, Cell.make .manage 40 (load 24 0 0))
      ∧ after (exec (.outboundManage 40 (load 24 0 0)) s)
        = some (s.shows .outbound (Cell.make .manage 40 (load 24 0 0))) := by decide

theorem test_outbound_passthrough : after (exec (.outboundPassthrough .state 10 (load 1 0 5)) area)
    = some (area.shows .outbound (Cell.make .state 10 (load 1 0 5))) := by decide
theorem test_return_passthrough : after (exec (.returnPassthrough .head 3 (load 77 0 0)) area)
    = some (area.shows .ret (Cell.make .head 3 (load 77 0 0))) := by decide

/-- One of each kind that is not for the part: another station's MANAGE, an unsuited ORDER, a second STATE,
a MUX with input 4. -/
theorem test_manage_elsewhere : ready area ∧ (41 : Byte) ≠ area.port.own.setWidth 8
    ∧ after (exec (.outboundManage 41 (load 24 0 0)) area)
      = some (area.shows .outbound (Cell.make .manage 41 (load 24 0 0))) := by decide
theorem test_order_unsuited :
    after (exec (.outboundOrder 20 (load 1 0 0)) area)
        = some (area.shows .outbound (Cell.make .order 20 (load 1 0 0)))
      ∧ after (exec (.outboundOrder 10 (load 7 0 0)) area)
        = some (area.shows .outbound (Cell.make .order 10 (load 7 0 0)))
      ∧ stationOf 20 = some 20 ∧ (∀ p, positionStation area.setup p ≠ some 20)
      ∧ ∀ c, chainStation area.setup c ≠ some 10 := by decide
theorem test_second_state_and_bad_mux :
    let s := { area with port := { area.port with reportedPositions := area.port.reportedPositions.set 0 true } }
    positionAt s.setup 10 = some 0
      ∧ after (exec (.returnState 10 (load 1 0 5)) s) = some (s.shows .ret (Cell.make .state 10 (load 1 0 5)))
      ∧ chainAt s.setup 20 = some 0
      ∧ after (exec (.returnMux 20 (load 4 0 0)) s) = some (s.shows .ret (Cell.make .mux 20 (load 4 0 0))) := by
  decide

theorem test_head_from_searching_and_lost :
    let lost := motion 0 (fun m => { m with lastCount := some 5 })
      { area with port := { area.port with monitor := .lost, contact := true } }
    State.reset.contactRight ∧ lost.contactRight
      ∧ shows (exec (.outboundHead 1 (load 17 0 0)) State.reset)
          (fun t => t.port.monitor == .locked && t.port.sweep == 17 && t.port.silence == some 0) = true
      ∧ shows (exec (.outboundHead 1 (load 17 0 0)) lost) (fun t => (t.run.motions.get 0).resyncDue
          && !(t.run.motions.get 1).resyncDue && !t.port.contact) = true := by decide

theorem test_full_reset :
    shows (exec (.resetRelease 21) (resetAsserted busyArea))
        (fun t => t.port.own == 21 && t.setup == State.reset.setup && !t.port.resetHeld) = true
      ∧ shows (exec (.powerOn 22) (lossOfSupply busyArea))
        (fun t => t.port.own == 22 && t.port.powered && t.run.stack == []) = true := by decide
theorem test_reset_and_supply_open_contact :
    busyArea.port.contact = true
      ∧ shows (exec .resetAssert busyArea) (fun t => !t.port.contact && t.run == busyArea.run) = true
      ∧ shows (exec .lossOfSupply busyArea) (fun t => !t.port.contact && !t.port.powered) = true := by decide
/-- Every record and setting is gone; the straps, the lines and the RESET input stay. -/
theorem test_loss_of_supply_loses_all :
    after (exec .lossOfSupply busyArea) = some { State.reset with
      port := { State.reset.port with powered := false, straps := 40, own := 40 }
      run := { State.reset.run with schedule := busyArea.run.schedule } } := by decide
theorem test_reset_screen :
    (State.reset.setup.screen.get 1).get 0 = .force ∧ (State.reset.setup.screen.get 6).get 3 = .force
      ∧ (State.reset.setup.screen.get 4).get 0 = .pass := by decide
theorem test_reset_part :
    busyArea.acting ∧ shows (exec (.resetPart 5) busyArea) (fun t => t.setup == busyArea.setup
      && t.run.orders == [] && !t.port.contact
      && t.port.loopOut == some (Cell.make .reply 40 (load 24 5 9))) = true := by decide

/-! ### Requests -/

theorem test_request_answered :
    ready area ∧ shows (exec (.outboundManage 40 (load 15 3 8)) area)
      (fun t => t.port.loopOut == some (Cell.make .reply 40 (load (15 + 32 * 2) 3 9))) = true := by decide
theorem test_unknown_request :
    after (exec (.unknownRequest 25 3 (Vector.replicate 11 7)) area)
      = some (area.replies 0 3 1 (Vector.replicate 10 0)) := by decide
theorem test_read_param :
    after (exec (.readParam 3 5) area) = some (area.replies 23 3 0 #v[5, 0, 250, 0, 0, 0, 0, 0, 0, 0])
      ∧ after (exec (.readParam 3 10) area) = some (area.replies 23 3 2 (Vector.replicate 10 0)) := by decide
theorem test_set_param :
    after (exec (.setParam 3 9 12) area) = some (State.replies (withParams (fun p => { p with markGap := 12 }) area)
        22 3 0 #v[9, 0, 12, 0, 0, 0, 0, 0, 0, 0])
      ∧ after (exec (.setParam 3 9 13) area) = some (area.replies 22 3 2 (Vector.replicate 10 0)) := by decide
theorem test_screen :
    after (exec (.readScreen 3 7) area) = some (area.replies 15 3 0 #v[0, 0, 0, 2, 0, 0, 0, 0, 0, 0])
      ∧ after (exec (.readScreen 3 0) area) = some (area.replies 15 3 2 (Vector.replicate 10 0)) := by decide
theorem test_set_screen :
    shows (exec (.setScreen 3 7 1 1 1 2) area)
        (fun t => t.setup.screen.get 6 == #v[.block, .block, .block, .force]) = true
      ∧ after (exec (.setScreen 3 7 1 1 1 3) area) = some (area.replies 14 3 2 (Vector.replicate 10 0)) := by decide
theorem test_rules :
    shows (exec (.setRule 3 15 #v[0x3d, 0xff, 0x81, 0xff, 8]) area) (fun t => t.setup.rules.get 15
        == { active := true, positions := 0xff, qualifier := .stopped, mask := 0x81, values := 0x81
             persistence := 8, severity := .major, action := .loss }) = true
      ∧ after (exec (.setRule 3 15 #v[1, 0xff, 0, 0, 1]) area) = some (area.replies 16 3 2 (Vector.replicate 10 0))
      ∧ after (exec (.readRule 3 2) busyArea)
        = some (busyArea.replies 17 3 0 #v[1, 1, 8, 0, 1, 0, 0, 0, 0, 0])
      ∧ after (exec (.readRule 3 16) area) = some (area.replies 17 3 2 (Vector.replicate 10 0)) := by decide
theorem test_set_alarm_enables :
    shows (exec (.setAlarmEnables 3 0 0x2001) area) (fun t => !(t.setup.enables.get 0)
        && !(t.setup.enables.get 13) && t.setup.enables.get 1) = true
      ∧ after (exec (.setAlarmEnables 3 1 0x4000) area) = some (area.replies 20 3 2 (Vector.replicate 10 0)) := by
  decide

/-- Slot 18 ranks above the slot under service and is taken; slot 20 waits below it. -/
theorem test_take_alarm :
    let s := slot 18 (fun x => { x with pending := true }) busyArea
    s.contactRight ∧ masked s.run 18 = false ∧ masked s.run 20 = true
      ∧ shows (exec (.takeAlarm 3) s) (fun t => t.run.stack == [18, 19] && !(t.run.slots.get 18).pending) = true
      ∧ after (exec (.takeAlarm 3) area) = some (area.replies 18 3 6 (Vector.replicate 10 0)) := by decide
theorem test_release_alarm :
    let s := slot 20 (fun x => { x with noticed := true }) busyArea
    s.run.stack = [19] ∧ shows (exec (.releaseAlarm 3) s) (fun t => t.run.stack == []
        && !(t.run.slots.get 19).underService && !(t.run.slots.get 20).noticed) = true
      ∧ after (exec (.releaseAlarm 3) area) = some (area.replies 19 3 6 (Vector.replicate 10 0)) := by decide
theorem test_read_alarms :
    shows (exec (.readAlarms 3 1 0) busyArea) (fun t => t.port.loopOut
        == some (busyArea.replyCell 21 3 0 #v[4, 2, 255, 1, 0, 0, 0, 0, 0, 0])) = true
      ∧ shows (exec (.readAlarms 3 0 99) busyArea) (fun t => t.port.loopOut
        == some (busyArea.replyCell 21 3 0 #v[0, 0, 0, 0, 0, 0, 63, 1, 0, 0])) = true
      ∧ after (exec (.readAlarms 3 1 8) busyArea)
        = some (busyArea.replies 21 3 2 (Vector.replicate 10 0)) := by decide

/-- The footage of R24: +1,203 on 35 mm is 75 feet 3; −20 is negative, 1 foot 4. -/
theorem test_footage :
    let s := motion 0 (fun m => { m with value := 1203 }) (motion 1 (fun m => { m with value := -20 }) area)
    after (exec (.readPosition 3 0 1) s) = some (s.replies 2 3 0 #v[0, 4, 0xb3, 0, 0, 75, 3, 0, 0, 0])
      ∧ after (exec (.readPosition 3 1 1) s)
        = some (s.replies 2 3 0 #v[0xff, 0xff, 0xec, 1, 0, 1, 4, 0, 0, 0]) := by decide
theorem test_read_position_state :
    after (exec (.readPosition 3 2 0) area)
        = some (area.replies 2 3 0 #v[12 + 64, 3, 64, 0, 0, 0, 0, 0, 0, 0])
      ∧ after (exec (.readPosition 3 8 0) area) = some (area.replies 2 3 2 (Vector.replicate 10 0)) := by decide
theorem test_read_reel_chain_cue :
    after (exec (.readReel 3 0) busyArea)
        = some (busyArea.replies 11 3 0 #v[3, 255, 255, 255, 1, 0, 0, 90, 0, 8])
      ∧ after (exec (.readChain 3 0) area)
        = some (area.replies 5 3 0 #v[20 + 64 + 128, 0, 1, 3, 25, 3, 24, 36, 255, 255])
      ∧ after (exec (.readCue 3 3 7) busyArea)
        = some (busyArea.replies 7 3 0 #v[0, 0, 0, 0, 0, 0, 0, 0, 0, 32]) := by decide
theorem test_reads_out_of_range :
    after (exec (.readReel 3 8) area) = some (area.replies 11 3 2 (Vector.replicate 10 0))
      ∧ after (exec (.readChain 3 4) area) = some (area.replies 5 3 2 (Vector.replicate 10 0))
      ∧ after (exec (.readCue 3 32 0) area) = some (area.replies 7 3 2 (Vector.replicate 10 0)) := by decide

/-- Page 3, record 7: a MARK record with its backstop, then the refusals. -/
theorem test_load_cue :
    let c : Cue := { trigger := .mark 4 (some 9), point := 9, action := .announce, tag := 77 }
    ready busyArea ∧ pageLocked busyArea.setup busyArea.run 3 = false
      ∧ shows (exec (.loadCue 3 31 #v[0xd6, 0, 0, 9, 0, 0, 9, 4, 77]) busyArea) (fun t =>
          (t.setup.pages.get 3).get 7 == some c) = true
      ∧ after (exec (.loadCue 3 31 #v[0xd6, 0, 0, 9, 0, 0, 8, 4, 77]) busyArea)
        = some (busyArea.replies 6 3 2 (Vector.replicate 10 0))
      ∧ after (exec (.loadCue 3 31 #v[0x87, 0, 0, 9, 0, 0, 0, 0, 0]) busyArea)
        = some (busyArea.replies 6 3 1 (Vector.replicate 10 0)) := by decide
theorem test_load_cue_vacant_and_locked :
    let moving := motion 0 (fun m => { m with motion := .runup }) busyArea
    shows (exec (.loadCue 3 31 #v[0x07, 0, 0, 9, 0, 0, 0, 0, 0]) busyArea)
        (fun t => (t.setup.pages.get 3).get 7 == none) = true
      ∧ pageLocked moving.setup moving.run 3 = true
      ∧ after (exec (.loadCue 3 31 #v[0x80, 0, 0, 9, 0, 0, 0, 0, 0]) moving)
        = some (moving.replies 6 3 3 (Vector.replicate 10 0)) := by decide
theorem test_clear_page :
    let moving := motion 0 (fun m => { m with motion := .stopping }) busyArea
    shows (exec (.clearPage 3 31) busyArea) (fun t => t.setup.pages.get 31 == Vector.replicate 8 none) = true
      ∧ after (exec (.clearPage 3 3) moving) = some (moving.replies 8 3 3 (Vector.replicate 10 0))
      ∧ after (exec (.clearPage 3 32) moving) = some (moving.replies 8 3 2 (Vector.replicate 10 0)) := by decide
/-- A write at reel 0's cursor, its record under WAIT; one record below it; the cursor at the list's end; a page in
no slot. -/
theorem test_rewrite_at_cursor :
    let at_ := fun n : Nat => scan 0 (fun x =>
      { x with cursor := n, marks := 2, hold := .wait, met := some true }) busyArea
    let load := fun (pr : Byte) (s : State) => (after (exec (.loadCue 3 pr (Vector.replicate 9 0)) s)).map State.run
    let clear := fun (g : Byte) (s : State) => (after (exec (.clearPage 3 g) s)).map State.run
    let freed := fun n : Nat => scan 0 (fun x => { x with marks := 0, hold := .none, met := none }) (at_ n)
    PagesSingle busyArea.setup ∧ (busyArea.setup.reels.get 0).slots.get 0 = some 3
      ∧ load 31 (at_ 7) = some (freed 7).run ∧ load 30 (at_ 7) = some (at_ 7).run
      ∧ load 24 (at_ 0) = some (freed 0).run ∧ clear 3 (at_ 7) = some (freed 7).run
      ∧ clear 3 (at_ 8) = some (at_ 8).run ∧ clear 31 (at_ 7) = some (at_ 7).run := by
  refine ⟨by decide, by decide, by decide, by decide, by decide, by decide, by decide, by decide⟩
theorem test_map_page :
    let moving := motion 0 (fun m => { m with motion := .locked }) busyArea
    shows (exec (.mapPage 3 0 3 31) busyArea) (fun t => (t.setup.reels.get 0).slots.get 3 == some 31) = true
      ∧ shows (exec (.mapPage 3 7 0 255) busyArea) (fun t => t.setup == busyArea.setup) = true
      ∧ after (exec (.mapPage 3 1 0 3) busyArea) = some (busyArea.replies 9 3 5 (Vector.replicate 10 0))
      ∧ after (exec (.mapPage 3 0 0 3) moving) = some (moving.replies 9 3 3 (Vector.replicate 10 0))
      ∧ after (exec (.mapPage 3 7 0 1) busyArea) = some (busyArea.replies 9 3 2 (Vector.replicate 10 0)) := by
  decide
theorem test_restart_cues :
    let s := scan 0 (fun x => { x with cursor := 5, marks := 2 }) area
    let broken := motion 0 (fun m => { m with motion := .broken }) area
    shows (exec (.restartCues 3 0) s) (fun t => (t.run.scans.get 0) == ScanRec.restarted) = true
      ∧ after (exec (.restartCues 3 0) broken) = some (broken.replies 13 3 3 (Vector.replicate 10 0))
      ∧ after (exec (.restartCues 3 8) area) = some (area.replies 13 3 2 (Vector.replicate 10 0)) := by decide
theorem test_set_reel :
    let moving := motion 0 (fun m => { m with motion := .runup }) area
    shows (exec (.setReel 3 0 1 0xff8000) area)
        (fun t => (t.setup.reels.get 0).lastPicture == some (-32768)) = true
      ∧ shows (exec (.setReel 3 0 0 0x800000) busyArea) (fun t => (t.setup.reels.get 0).lastPicture == none) = true
      ∧ after (exec (.setReel 3 0 1 0xff7fff) area) = some (area.replies 10 3 2 (Vector.replicate 10 0))
      ∧ after (exec (.setReel 3 0 0 0) moving) = some (moving.replies 10 3 3 (Vector.replicate 10 0)) := by decide
theorem test_set_position :
    let moving := motion 0 (fun m => { m with motion := .broken }) area
    shows (exec (.setPosition 3 0 0x03ffff) area) (fun t => (t.run.motions.get 0).value == 262143
        && (t.run.motions.get 0).referenced) = true
      ∧ after (exec (.setPosition 3 0 0x040000) area) = some (area.replies 12 3 2 (Vector.replicate 10 0))
      ∧ after (exec (.setPosition 3 5 0) area) = some (area.replies 12 3 2 (Vector.replicate 10 0))
      ∧ after (exec (.setPosition 3 0 0) moving) = some (moving.replies 12 3 3 (Vector.replicate 10 0)) := by decide

theorem test_define_position :
    ready area ∧ chainOf area.setup 3 = none
      ∧ shows (exec (.definePosition 3 3 63 16 30) area)
          (fun t => t.setup.positions.get 3 == some ⟨63, .mm16, .fps30⟩) = true
      ∧ shows (exec (.definePosition 3 0 255 0 0) area) (fun t => t.setup.positions.get 0 == none) = true
      ∧ after (exec (.definePosition 3 3 40 16 30) area) = some (area.replies 1 3 5 (Vector.replicate 10 0)) := by
  decide

/-- A station changed: the order for the old one is gone, the lamp, the reel's record and the counters
restarted, the strike entry gone. -/
theorem test_define_position_restarts :
    let s := (orders [⟨12, .stop⟩, ⟨11, .start⟩] (scan 2 (fun x => { x with cursor := 0, dotRun := 3 })
      (onRun (fun r => { r with strikeQueue := [⟨2, .urgent⟩, ⟨1, .ordinary⟩]
                                counters := Vector.replicate 16 (Vector.replicate 8 1) })
        (lamp 2 (fun l => { l with lamp := .queued, dwell := 3 }) area))))
    StationsSingle s.port.own s.setup ∧ shows (exec (.definePosition 3 2 13 16 25) s) (fun t =>
      t.run.lamps.get 2 == State.reset.run.lamps.get 2 && t.run.scans.get 2 == State.reset.run.scans.get 2
        && t.run.strikeQueue == [⟨1, .ordinary⟩] && t.run.orders == [⟨11, .start⟩]
        && (t.run.counters.get 15).get 2 == 0 && (t.run.counters.get 15).get 1 == 1) = true := by decide

/-- Reel 2 with one LOADED record, of point 100, at index 7: the cursor goes there for 100, past it for 101. -/
theorem test_set_position_places_cursor :
    let cue : Cue := { trigger := .position, point := 100, action := .announce, tag := 8 }
    let s := { area with setup := { area.setup with
      reels := area.setup.reels.set 2 { slots := #v[some 5, none, none, none], lastPicture := none }
      pages := area.setup.pages.set 5 ((area.setup.pages.get 5).set 7 (some cue)) } }
    let at_ := fun n : Nat => after (exec (.setPosition 3 2 (BitVec.ofNat 24 (93 + n))) s) |>.map
      (fun t => ((t.run.scans.get 2).cursor, t.run.notices))
    listLength s.setup 2 = 8 ∧ partnerOf s.setup 2 = none ∧ (cueList s.setup 2)[7]? = some (some cue)
      ∧ at_ 7 = some (7, []) ∧ at_ 8 = some (8, []) := by decide
theorem test_define_position_refused :
    let moving := motion 2 (fun m => { m with motion := .broken }) area
    let held := chain 0 (fun x => { x with state := .fallback }) area
    after (exec (.definePosition 3 2 12 35 24) moving) = some (moving.replies 1 3 4 (Vector.replicate 10 0))
      ∧ after (exec (.definePosition 3 0 255 0 0) held) = some (held.replies 1 3 4 (Vector.replicate 10 0))
      ∧ after (exec (.definePosition 3 2 64 35 24) area) = some (area.replies 1 3 2 (Vector.replicate 10 0)) := by
  decide
theorem test_define_chain :
    shows (exec (.defineChain 3 1 21 2 255 0) area)
        (fun t => t.setup.chains.get 1 == some ⟨21, some 2, none, false⟩) = true
      ∧ shows (exec (.defineChain 3 0 255 9 9 0) area) (fun t => t.setup.chains.get 0 == none) = true
      ∧ after (exec (.defineChain 3 1 21 2 2 0) area) = some (area.replies 3 3 5 (Vector.replicate 10 0))
      ∧ after (exec (.defineChain 3 1 21 0 2 0) area) = some (area.replies 3 3 5 (Vector.replicate 10 0)) := by decide
/-- A DARK chain's record restarts, and the flags of its old and new ports' positions are cleared. -/
theorem test_define_chain_restarts :
    let s := onRun (fun r => { r with runoutRaised := Vector.replicate 8 true, tailStopped := Vector.replicate 8 true })
      (chain 0 (fun x => { x with observed := some .caption, state := .dark, holdSweeps := 3 }) area)
    ready s ∧ PortsSingle s.setup ∧ (s.run.motions.get 1).motion ≠ .runup ∧ (s.run.motions.get 1).motion ≠ .locked
      ∧ shows (exec (.defineChain 3 0 20 0 2 0) s) (fun t => t.run.chains.get 0 == State.reset.run.chains.get 0
        && t.run.runoutRaised == #v[false, false, false, true, true, true, true, true]
        && t.run.tailStopped == #v[false, false, false, true, true, true, true, true]) = true := by decide
theorem test_define_chain_refused :
    let moving := motion 2 (fun m => { m with motion := .locked }) area
    let single := chain 0 (fun x => { x with state := .single }) area
    after (exec (.defineChain 3 1 21 2 255 0) moving) = some (moving.replies 3 3 4 (Vector.replicate 10 0))
      ∧ after (exec (.defineChain 3 0 255 0 0 0) single) = some (single.replies 3 3 4 (Vector.replicate 10 0))
      ∧ after (exec (.defineChain 3 1 21 8 255 0) area) = some (area.replies 3 3 2 (Vector.replicate 10 0)) := by
  decide
theorem test_set_chain_mode :
    shows (exec (.setChainMode 3 3 2 250 10 255) area) (fun t => t.setup.modes.get 3
        == { armed := false, fallback := true, holdLimit := 250, switchLimit := 10, runoutGuard := 255 }) = true
      ∧ after (exec (.setChainMode 3 3 2 4 10 255) area)
        = some (area.replies 4 3 2 (Vector.replicate 10 0)) := by decide

/-! ### Orders and outbound VOIDs -/

/-- START of an IDLE position is set to BLOCK; the rest of the table is R138's. -/
def screenedArea : State :=
  { area with setup := { area.setup with screen := area.setup.screen.set 0 #v[.pass, .pass, .block, .force] } }

theorem test_blocked_order :
    let note : Notice := { sweep := 9, body := .blocked 12 .start .idle .table }
    ready screenedArea ∧ deskOrder screenedArea.setup 12 (load 1 0 0) = some (.position 12 2 .start)
      ∧ screened screenedArea.setup screenedArea.run (.position 12 2 .start) false = some .table
      ∧ after (exec (.outboundOrder 12 (load 1 0 0)) screenedArea)
        = some ((onRun (fun r => { r with notices := [note] }) screenedArea).shows .outbound Cell.void) := by
  decide
theorem test_blocked_order_notices_full :
    let s := onRun (fun r => { r with notices := List.replicate 16 ⟨0, .clear 0 .brk⟩ }) screenedArea
    shows (exec (.outboundOrder 12 (load 1 0 0)) s)
      (fun t => t.run.notices.length == 16 && (t.run.slots.get 1).pending && !t.port.contact) = true := by decide
theorem test_screen_verdicts :
    let switching := chain 0 (fun x => { x with state := .switching }) area
    screened switching.setup switching.run (.select 20 0 .black) true = some .switching
      ∧ screened area.setup area.run (.select 20 0 .black) false = none
      ∧ screened area.setup (motion 0 (fun m => { m with silent := true }) area).run (.position 10 0 .start) false
        = some .unforced
      ∧ screened area.setup (motion 0 (fun m => { m with silent := true }) area).run (.position 10 0 .start) true
        = none := by decide

theorem test_start_and_stop :
    let stopped := motion 2 (fun m => { m with motion := .stopped }) area
    let running := motion 2 (fun m => { m with motion := .locked, stall := 2, stallFlag := true }) area
    ready stopped ∧ deskOrder stopped.setup 12 (load 2 0 0) = some (.position 12 2 .stop)
      ∧ screened stopped.setup stopped.run (.position 12 2 .stop) false = none
      ∧ shows (exec (.outboundOrder 12 (load 1 0 0)) stopped) (fun t =>
          (t.run.motions.get 2).motion == .runup && (t.run.motions.get 2).runup == some 0) = true
      ∧ shows (exec (.outboundOrder 12 (load 2 0 0)) running) (fun t =>
          (t.run.motions.get 2).motion == .stopping && !(t.run.motions.get 2).stallFlag) = true := by decide
theorem test_dowser_and_lamp_down_orders :
    let s := orders [⟨12, .dowserOpen⟩, ⟨12, .lampUp⟩]
      (lamp 2 (fun l => { l with lamp := .settling, settle := some 3, dwell := 7 }) area)
    ready s ∧ partnerOf s.setup 2 = none
      ∧ shows (exec (.outboundOrder 12 (load 6 0 0)) s)
          (fun t => (t.run.lamps.get 2).dwell == 0 && t.run.orders == [⟨12, .lampUp⟩]) = true
      ∧ shows (exec (.outboundOrder 12 (load 5 0 0)) s) (fun t => t.run.orders == [⟨12, .lampUp⟩]) = true
      ∧ shows (exec (.outboundOrder 12 (load 4 0 0)) s) (fun t => (t.run.lamps.get 2).lamp == .dark
          && (t.run.lamps.get 2).downPending && t.run.orders == [⟨12, .dowserOpen⟩]) = true := by decide
/-- LAMP DOWN of a QUEUED lamp; of a STRIKING one with Stagger gap 10, and with 0 where no entry is eligible. -/
theorem test_lamp_down_of_strikes :
    let q := onRun (Run.joinStrike ⟨2, .urgent⟩) (lamp 2 (fun l => { l with lamp := .queued }) area)
    let u := onRun (Run.joinStrike ⟨1, .ordinary⟩) (onRun (Run.setGate (.striking 2))
      (lamp 1 (fun l => { l with lamp := .queued, downPending := true })
        (lamp 2 (fun l => { l with lamp := .striking, strikeTimer := some 3 }) area)))
    let v := withParams (fun p => { p with staggerGap := 0 }) u
    let ends := fun (s : State) (queue : List StrikeEntry) (gate : Gate) =>
      shows (exec (.outboundOrder 12 (load 4 0 0)) s) (fun t => (t.run.lamps.get 2).lamp == .dark
        && (t.run.lamps.get 2).downPending && (t.run.lamps.get 2).strikeTimer == none
        && t.run.strikeQueue == queue && t.run.gate == gate)
    ready q ∧ ready u ∧ StrikesSound q.run ∧ StrikesSound u.run
      ∧ (∀ y ∈ v.run.strikeQueue, (v.run.lamps.get y.position).downPending = true)
      ∧ ends q [] .free = true ∧ ends u [⟨1, .ordinary⟩] (.gap 0) = true ∧ ends v [⟨1, .ordinary⟩] .free = true := by
  decide
theorem test_lamp_up_rerouted :
    let s := onRun (Run.setGate (.gap 1)) (lamp 2 (fun l => { l with lamp := .dark }) area)
    deskOrder s.setup 12 (load 3 0 0) = some (.position 12 2 .lampUp)
      ∧ screened s.setup s.run (.position 12 2 .lampUp) false = none
      ∧ shows (exec (.outboundOrder 12 (load 3 0 0)) s) (fun t => t.run.strikeQueue == [⟨2, .ordinary⟩]
          && (t.run.lamps.get 2).lamp == .queued && t.port.loopOut == some Cell.void) = true
      ∧ after (exec (.outboundOrder 12 (load 3 0 0)) area) = some (area.shows .outbound Cell.void) := by decide

/-- Chain 0 SINGLE on position 0; HOLDING for position 0's CHANGE record, the last of its list. -/
def onAirArea : State :=
  let s := chain 0 (fun x => { x with observed := some .port0, state := .single })
    (motion 0 (fun m => { m with motion := .locked, referenced := true, value := 50 }) busyArea)
  { s with run := { s.run with roles := s.run.roles.set 0 .onAir |>.set 1 .next, onAir := s.run.onAir.set 0 true } }

def changeCue : Cue := { trigger := .position, point := 50, action := .change true, tag := 33 }

def holdingArea : State :=
  let s := chain 0 (fun x => { x with state := .holding, hold := some (0, .change), holdTimer := .running 24 })
    (scan 0 (fun x => { x with cursor := 7, hold := .hold, met := some false }) onAirArea)
  { s with setup := { s.setup with pages := s.setup.pages.set 3 ((s.setup.pages.get 3).set 7 (some changeCue)) } }

/-- The four roles, at the ports and in no chain, and the columns of a SELECT to each kind of input. -/
theorem test_screen_columns :
    let s := motion 2 (fun m => { m with motion := .broken }) onAirArea
    let half := { s with setup := { s.setup with positions := s.setup.positions.set 1 none } }
    let mixed := { s with setup := { s.setup with positions := s.setup.positions.set 1 (some ⟨11, .mm35, .fps25⟩) } }
    let role := fun (s : State) (p : Fin 8) => roleOf s.setup s.run p
    let column := fun i => columnOf s.setup s.run (.select 20 0 i)
    PortsSingle s.setup ∧ [role s 0, role s 1, role s 2, role s 3] = [.onAir, .next, .faulted, .idle]
      ∧ role (lamp 0 (fun l => { l with fault := true }) s) 0 = .faulted ∧ role onAirArea 2 = .idle
      ∧ role half 1 = .idle ∧ role mixed 1 = .idle ∧ role area 0 = .idle
      ∧ [column .port0, column .port1, column .caption, column .black] = [.onAir, .next, .idle, .idle]
      ∧ columnOf s.setup s.run (.position 12 2 .stop) = .faulted := by
  refine ⟨by decide, by decide, by decide, by decide, by decide, by decide, by decide, by decide, by decide⟩

/-- The record under HOLD rewritten, its reel at rest: the chain leaves HOLDING. -/
theorem test_rewrite_of_held_record :
    let s := motion 0 (fun m => { m with motion := .stopped }) holdingArea
    ready s ∧ PortsSingle s.setup ∧ pageLocked s.setup s.run 3 = false ∧ chainOf s.setup 0 = some (0, .zero)
      ∧ pastRunout s.setup s.run 0 0 = false ∧ pastRunout s.setup s.run 0 1 = false
      ∧ shows (exec (.loadCue 3 31 (Vector.replicate 9 0)) s) (fun t => (t.run.scans.get 0).hold == .none
        && (t.run.scans.get 0).cursor == 7 && t.run.chains.get 0
          == { s.run.chains.get 0 with hold := none, holdTimer := .idle, holdSweeps := 24, state := .single })
        = true := by decide
theorem test_desk_select :
    ready onAirArea ∧ deskOrder onAirArea.setup 20 (load 7 1 0) = some (.select 20 0 .port1)
      ∧ screened onAirArea.setup onAirArea.run (.select 20 0 .port1) false = none
      ∧ shows (exec (.outboundOrder 20 (load 7 1 0)) onAirArea) (fun t =>
          (t.run.chains.get 0).target == some (.port1, .desk) && (t.run.chains.get 0).select == .sent) = true := by
  decide
theorem test_desk_select_in_holding :
    ready holdingArea ∧ (holdingArea.run.chains.get 0).state = .holding
      ∧ screened holdingArea.setup holdingArea.run (.select 20 0 .black) false = none
      ∧ shows (exec (.outboundOrder 20 (load 7 3 0)) holdingArea) (fun t =>
          (t.run.chains.get 0).state == .switching && (t.run.chains.get 0).holdSweeps == 24
          && t.run.notices.getLast? == some { sweep := 9, body := .cue 0 33 (.change true) .takenByDesk false 50 })
        = true := by decide

/-- Position 0 of chain 0 at rest with its runout point at the value 50 it shows. -/
def runoutArea (fallback : Bool) (state : ChainState) (raised : Bool) : State :=
  let s := chain 0 (fun x => { x with state := state }) (motion 0 (fun m => { m with motion := .stopped }) onAirArea)
  { s with
    setup := { s.setup with
      modes := s.setup.modes.set 0 { s.setup.modes.get 0 with fallback := fallback, runoutGuard := 10 } }
    run := { s.run with runoutRaised := s.run.runoutRaised.set 0 raised } }

theorem test_set_reel_runout :
    let at_ := fun (s : State) (f : State → Bool) => shows (exec (.setReel 3 0 1 40) s) f
    let s := runoutArea true .single false
    ready s ∧ chainOf s.setup 0 = some (0, .zero) ∧ isOnAir s.setup s.run 0 = true ∧ chainOf s.setup 2 = none
      ∧ at_ s (fun t => (t.run.slots.get (slotRunout 0)).pending && t.run.runoutRaised.get 0
          && (t.run.chains.get 0).target == some (.caption, .fallback)
          && t.run.orders == busyArea.run.orders ++ [⟨20, .select .caption⟩]) = true
      ∧ at_ (runoutArea false .double false) (fun t => t.run.runoutRaised.get 0
          && (t.run.chains.get 0).state == .double) = true
      ∧ at_ (runoutArea true .holding false) (fun t => t.run.runoutRaised.get 0
          && (t.run.chains.get 0).state == .holding) = true
      ∧ at_ (runoutArea true .holding true) (fun t => !(t.run.slots.get (slotRunout 0)).pending) = true
      ∧ at_ (runoutArea true .switching false) (fun t => !t.run.runoutRaised.get 0) = true
      ∧ shows (exec (.setReel 3 0 1 41) (runoutArea true .single true)) (fun t =>
          !t.run.runoutRaised.get 0) = true := by decide

/-- Position 1 runs off air, and a guard of 9 puts it past runout. -/
theorem test_guard_stops_tail :
    let s := motion 1 (fun m => { m with motion := .runup, referenced := true, value := 49 }) onAirArea
    let s := { s with setup := { s.setup with
      reels := s.setup.reels.set 1 { s.setup.reels.get 1 with lastPicture := some 40 } } }
    ready s ∧ isOnAir s.setup s.run 1 = false ∧ chainOf s.setup 1 = some (0, .one)
      ∧ pastRunout s.setup s.run 0 0 = false
      ∧ shows (exec (.setChainMode 3 0 3 25 3 9) s) (fun t => t.run.tailStopped.get 1
          && t.run.orders == busyArea.run.orders ++ [⟨11, .stop⟩, ⟨11, .dowserClose⟩]) = true := by decide

theorem test_outbound_void :
    let q : List OrderEntry := [⟨10, .lampUp⟩, ⟨20, .select .black⟩, ⟨12, .dowserClose⟩]
    let s := orders q area
    let u := orders [⟨12, .dowserClose⟩, ⟨10, .lampDown⟩] (lamp 2 (fun l => { l with dwell := 4 }) area)
    ready s ∧ after (exec (.outboundVoid 7 nil13) area) = some (area.shows .outbound (Cell.make .void 7 nil13))
      ∧ shows (exec (.outboundVoid 0 nil13) s) (fun t => t.run.orders == [⟨10, .lampUp⟩, ⟨12, .dowserClose⟩]
          && t.port.loopOut == some (Cell.make .order 20 (load 7 3 1))) = true
      ∧ positionAt u.setup 12 = some 2
      ∧ shows (exec (.outboundVoid 0 nil13) u) (fun t => t.run.orders == [⟨10, .lampDown⟩]
          && (t.run.lamps.get 2).dwell == 0 && t.port.loopOut == some (Cell.make .order 12 (load 6 0 1))) = true
      ∧ shows (exec (.outboundVoid 0 nil13) (orders [⟨10, .lampDown⟩] area)) (fun t => t.run.orders == []
          && t.port.loopOut == some (Cell.make .order 10 (load 4 0 1))) = true := by decide

theorem test_desk_select_in_holding_chain :
    shows (exec (.outboundOrder 20 (load 7 3 0)) holdingArea) (fun t => t.run.chains.get 0
      == { holdingArea.run.chains.get 0 with
        target := some (.black, .desk), fromInput := some .port0, select := .sent, switchTimer := some 0
        state := .switching, hold := none, holdTimer := .idle, holdSweeps := 24 }) = true := by decide

/-- START of a STOPPED position and of one in RUNUP; SELECT of a chain SWITCHING and of one not; an order for a
station that nothing has. -/
theorem test_outbound_void_hands_on :
    let at_ := fun (q : List OrderEntry) (s : State) (f : State → Bool) =>
      shows (exec (.outboundVoid 0 nil13) (orders q s)) f
    let stopped := motion 2 (fun m => { m with motion := .stopped }) area
    let queued := chain 0 (fun x => { x with state := .switching, select := .queued }) area
    at_ [⟨12, .start⟩] stopped (fun t => (t.run.motions.get 2).motion == .runup && t.run.orders == []) = true
      ∧ at_ [⟨12, .stop⟩] stopped (fun t => t.run == (orders [] stopped).run) = true
      ∧ at_ [⟨10, .start⟩, ⟨20, .select .port1⟩] queued (fun t => (t.run.chains.get 0).select == .sent
          && t.run.orders == [⟨10, .start⟩]) = true
      ∧ at_ [⟨20, .select .port1⟩] area (fun t => t.run == (orders [] area).run) = true
      ∧ positionAt area.setup 33 = none ∧ chainAt area.setup 33 = none
      ∧ at_ [⟨33, .dowserClose⟩] area (fun t => t.run == (orders [] area).run) = true := by decide

/-- Chain 0 disarmed, all else of its mode as it stands: reel 0's cursor, and how its record ends, if it does. -/
def disarms (s : State) : Option (Nat × Option (CueOutcome × Bool)) :=
  (after (exec (.setChainMode 3 0 2 25 3 24) s)).map (fun t => ((t.run.scans.get 0).cursor,
    match t.run.notices.getLast? with
    | some ⟨_, .cue _ _ _ how back _⟩ => some (how, back)
    | _ => none))

/-- Reel 0's last record with this trigger and action, the reel's mark count at 2. -/
def dueArea (tr : Trigger) (a : Action) : State :=
  { scan 0 (fun x => { x with cursor := 7, marks := 2 }) onAirArea with
    setup := { onAirArea.setup with pages := onAirArea.setup.pages.set 3 ((onAirArea.setup.pages.get 3).set 7
      (some { trigger := tr, point := 50, action := a, tag := 8 })) } }

/-- Not due; due by its position and by its marks; BY BACKSTOP; an ANNOUNCE; each at the bound of its trigger. -/
theorem test_disarm_due :
    let s := dueArea (.mark 3 (some 51)) .lampPartner
    ready s ∧ PortsSingle s.setup ∧ scanned s.setup s.run 0 = true ∧ scanned s.setup s.run 1 = false
      ∧ listLength s.setup 0 = 8 ∧ (s.setup.modes.get 0).armed = true ∧ disarms s = some (7, none)
      ∧ disarms (dueArea .position (.change true)) = some (8, some (.suppressed, false))
      ∧ disarms (dueArea (.mark 2 none) .caption) = some (8, some (.suppressed, false))
      ∧ disarms (dueArea (.mark 3 (some 50)) .tailStop) = some (8, some (.suppressed, true))
      ∧ disarms (dueArea .position .announce) = some (8, some (.done, false)) := by
  refine ⟨by decide, by decide, by decide, by decide, by decide, by decide, by decide, by decide, by decide,
    by decide, by decide⟩
theorem test_nothing_to_take : NothingToTake (dueArea (.mark 3 (some 51)) .lampPartner) 0
    ∧ NothingToTake (dueArea (.mark 3 (some 51)) .lampPartner) 1 :=
  ⟨.inr (.inr ⟨{ trigger := .mark 3 (some 51), point := 50, action := .lampPartner, tag := 8 }, by decide⟩),
    .inl (by decide)⟩
theorem test_disarm_by_backstop_raises :
    shows (exec (.setChainMode 3 0 2 25 3 24) (dueArea (.mark 3 (some 50)) .tailStop))
      (fun t => (t.run.slots.get (slotMarkMissing 0)).pending) = true := by decide

/-- A record under WAIT, one deferred, one of a pair not valid; and one under HOLD, whose chain leaves HOLDING. -/
theorem test_disarm_held :
    let wait := scan 0 (fun x => { x with hold := .wait, met := some false }) (dueArea .position .lampDown)
    let met := scan 0 (fun x => { x with met := some true })
      (chain 0 (fun x => { x with state := .switching }) (dueArea (.mark 3 none) (.change false)))
    let void := dueArea .position .lampPartner
    let void := { void with setup := { void.setup with positions := void.setup.positions.set 1 none } }
    disarms wait = some (8, some (.suppressed, false)) ∧ disarms met = some (8, some (.suppressed, true))
      ∧ pairValid void.setup 0 = false ∧ disarms void = some (8, some (.void, false))
      ∧ (holdingArea.run.chains.get 0).hold = some (0, .change) ∧ partnerOf holdingArea.setup 0 = some 1
      ∧ disarms holdingArea = some (8, some (.suppressed, false))
      ∧ shows (exec (.setChainMode 3 0 2 25 3 24) holdingArea) (fun t => t.run.chains.get 0
        == { holdingArea.run.chains.get 0 with hold := none, holdTimer := .idle, holdSweeps := 24, state := .single })
        = true := by
  refine ⟨by decide, by decide, by decide, by decide, by decide, by decide, by decide, by decide⟩

/-- Chain 0 SINGLE with Fallback off, position 0 on air with a runout point of 50 plus the distance, SILENT or not,
position 1's lamp in a state, READY or not. -/
def fallbackOff (distance : Nat) (silent : Bool) (l : LampState) (isReady : Bool) : State :=
  let s := onRun (Run.setGate (.gap 1)) (motion 0 (fun m => { m with silent := silent })
    (lamp 1 (fun x => { x with lamp := l, ready := isReady }) onAirArea))
  { s with setup := { s.setup with
      modes := s.setup.modes.set 0 { s.setup.modes.get 0 with fallback := false }
      reels := s.setup.reels.set 0 { s.setup.reels.get 0 with lastPicture := some (40 + distance) } } }

/-- Fallback turned on with a guard of 10: what the chain's state, target and the strike queue become. -/
def turnsOn (s : State) : Option (ChainState × Option (Input × SwitchKind) × List StrikeEntry) :=
  (after (exec (.setChainMode 3 0 3 25 3 10) s)).map (fun t =>
    ((t.run.chains.get 0).state, (t.run.chains.get 0).target, t.run.strikeQueue))

theorem test_fallback_on_premises :
    let s := fallbackOff 1 true .lit true
    ready s ∧ PortsSingle s.setup ∧ isOnAir s.setup s.run 0 = true ∧ chainOf s.setup 0 = some (0, .zero)
      ∧ LossStands s 0 ∧ IsNext s 0 1 ∧ ¬ LossStands (fallbackOff 1 false .lit true) 0 := by decide
theorem test_fallback_on :
    turnsOn (fallbackOff 1 false .lit true) = some (.single, none, [])
      ∧ turnsOn (fallbackOff 1 true .lit true) = some (.switching, some (.port1, .change), [])
      ∧ turnsOn (fallbackOff 1 true .lit false) = some (.switching, some (.caption, .fallback), [])
      ∧ turnsOn (fallbackOff 1 true .dark false) = some (.switching, some (.caption, .fallback), [⟨1, .urgent⟩]) := by
  refine ⟨by decide, by decide, by decide, by decide⟩
theorem test_fallback_on_past_runout :
    turnsOn (fallbackOff 0 true .lit true) = some (.switching, some (.caption, .fallback), [])
      ∧ shows (exec (.setChainMode 3 0 3 25 3 10) (fallbackOff 0 true .lit true)) (fun t =>
        (t.run.slots.get (slotRunout 0)).pending && t.run.runoutRaised.get 0) = true := by decide
theorem test_runout_premises : PortsSingle (runoutArea true .single false).setup
    ∧ PortsSingle (runoutArea false .double false).setup := by decide

/-! ### Reports, return VOIDs and sweep ends -/

theorem test_report_counts :
    let s := motion 2 (fun m => { m with motion := .stopped, lastCount := some 0xffff, value := 10
                                         referenced := true }) area
    ready s ∧ stationOf 12 = some 12 ∧ positionAt s.setup 12 = some 2
      ∧ s.port.reportedPositions.get 2 = false
      ∧ shows (exec (.returnState 12 (load 1 0x07 0xfe)) s) (fun t => (t.run.motions.get 2).value == 2057
          && (t.run.motions.get 2).referenced) = true
      ∧ shows (exec (.returnState 12 (load 1 0x07 0xff)) s) (fun t => (t.run.motions.get 2).value == 10
          && !(t.run.motions.get 2).referenced) = true := by decide
theorem test_report_moves :
    let at_ (m : Motion) (w : Byte) := motion 2 (fun x => { x with motion := m, lastCount := some 5
                                                                   signals := w }) area
    shows (exec (.returnState 12 (load 7 0 5)) area) (fun t => (t.run.motions.get 2).motion == .locked) = true
      ∧ shows (exec (.returnState 12 (load 6 0 5)) (at_ .locked 7)) (fun t =>
          (t.run.motions.get 2).motion == .broken && (t.run.slots.get (slotBreak 2)).pending) = true
      ∧ shows (exec (.returnState 12 (load 1 0 5)) (at_ .runup 3)) (fun t =>
          (t.run.motions.get 2).motion == .stopping && (t.run.slots.get (slotHalt 2)).pending) = true
      ∧ shows (exec (.returnState 12 (load 1 0 5)) (at_ .stopping 3)) (fun t =>
          (t.run.motions.get 2).motion == .stopped) = true
      ∧ shows (exec (.returnState 12 (load 1 0 5)) (at_ .broken 0)) (fun t =>
          (t.run.motions.get 2).motion == .stopped) = true := by decide
theorem test_report_moves_more :
    let at_ (m : Motion) (w : Byte) := motion 2 (fun x => { x with motion := m, lastCount := some 5
                                                                   signals := w }) area
    shows (exec (.returnState 12 (load 3 0 5)) (at_ .locked 7)) (fun t =>
          (t.run.motions.get 2).motion == .runup) = true
      ∧ shows (exec (.returnState 12 (load 7 0 6)) (at_ .locked 7)) (fun t =>
          (t.run.motions.get 2).motion == .locked && (t.run.motions.get 2).stall == 0) = true
      ∧ shows (exec (.returnState 12 (load 3 0 5)) (at_ .stopping 1)) (fun t =>
          (t.run.motions.get 2).motion == .runup) = true
      ∧ shows (exec (.returnState 12 (load 3 0 5)) (at_ .stopped 1)) (fun t =>
          (t.run.motions.get 2).motion == .runup) = true := by decide

theorem test_mux_report :
    let s := chain 0 (fun x => { x with state := .switching, target := some (.port0, .desk)
                                        fromInput := some .black, select := .sent, switchTimer := some 1 }) area
    ready s ∧ stationOf 20 = some 20 ∧ chainAt s.setup 20 = some 0 ∧ s.port.reportedChains.get 0 = false
      ∧ shows (exec (.returnMux 20 (load 0 0 0)) s) (fun t => (t.run.chains.get 0).observed == some .port0
          && t.run.notices.head? == some { sweep := 9, body := .change 0 (some .black) .port0 .desk 0 }) = true
      ∧ shows (exec (.returnMux 20 (load 3 0 0)) s) (fun t => t.run == s.run) = true
      ∧ shows (exec (.returnMux 20 (load 2 0 0)) s)
          (fun t => (t.run.chains.get 0).observed == some .caption) = true
      ∧ shows (exec (.returnMux 20 (load 1 0 0)) area)
          (fun t => (t.run.chains.get 0).observed == some .port1) = true := by decide

/-- A report with an advance of a referenced position, and what its blocks then make of DOT and the signals. -/
theorem test_report_handed :
    let s := motion 2 (fun m => { m with motion := .stopped, lastCount := some 4, referenced := true }) area
    let r := takeReport s.env 2 0x98 5 s.run
    ready s ∧ r.handoffs
        = [.lampReport 2 true true, .cueReport 2 true true, .chainAdvance 2, .ruleReport 2 0x98 .stopped]
      ∧ (after (exec (.returnState 12 (load 0x98 0 5)) s)).map State.run = some (drain s.env r) := by decide
theorem test_dot_and_rule_taken :
    let s := scan 2 (fun x => { x with clearRun := 5 }) busyArea
    let x := (takeHandoff s.env (.cueReport 2 true false) s.run).scans.get 2
    let y := (takeHandoff s.env (.cueReport 2 false false) s.run).scans.get 2
    x.dotRun = 1 ∧ x.precedingClear = 5 ∧ x.clearRun = 0 ∧ y.dotRun = 0 ∧ y.clearRun = 6
      ∧ ((takeHandoff s.env (.ruleReport 0 0 .locked) s.run).counters.get 2).get 0 = 1
      ∧ ((takeHandoff s.env (.ruleReport 0 8 .locked) s.run).counters.get 2).get 0 = 0
      ∧ ((takeHandoff s.env (.ruleReport 1 0 .locked) s.run).counters.get 2).get 1 = 0 := by decide

/-- What a report with this LAMP signal makes of position 2's lamp: state, lamp fault, LAMP pending, gate. -/
def lampAfter (l : LampState) (down : Bool) (g : Gate) (lit : Bool) : LampState × Bool × Bool × Gate :=
  let s := onRun (fun r => { r with gate := g, strikeQueue := if l = .queued then [⟨2, .ordinary⟩] else [] })
    (lamp 2 (fun x => { x with lamp := l, downPending := down, fault := true, strikeTimer := some 3 }) area)
  let t := takeHandoff s.env (.lampReport 2 lit false) s.run
  ((t.lamps.get 2).lamp, (t.lamps.get 2).fault, (t.slots.get (slotLamp 2)).pending, t.gate)

/-- Each row of the lamp machine: adoption, a local strike, an entry freed, a strike met, a lamp lost. -/
theorem test_lamp_reports :
    lampAfter .unreported false .free true = (.lit, true, false, .free)
      ∧ lampAfter .dark false .free true = (.settling, false, false, .free)
      ∧ lampAfter .dark true .free true = (.dark, true, false, .free)
      ∧ lampAfter .queued false (.gap 1) true = (.settling, false, false, .gap 1)
      ∧ lampAfter .queued true .free false = (.striking, true, false, .striking 2)
      ∧ lampAfter .queued true (.gap 1) false = (.queued, true, false, .gap 1) := by decide
theorem test_lamp_reports_lit :
    lampAfter .striking false (.striking 2) true = (.settling, false, false, .gap 0)
      ∧ lampAfter .striking false (.striking 2) false = (.striking, true, false, .striking 2)
      ∧ lampAfter .settling false .free false = (.dark, true, true, .free)
      ∧ lampAfter .lit false .free true = (.lit, true, false, .free) := by decide

/-- Chain 0 SWITCHING to an input with a kind, from black. -/
def switchingArea (i : Input) (k : SwitchKind) : State :=
  chain 0 (fun x => { x with state := .switching, target := some (i, k), fromInput := some .black
                             observed := some .black, select := .sent, switchTimer := some 1 }) area

/-- The switch confirmed at the caption for two kinds, at a port fit and unfit. -/
theorem test_switch_confirmed :
    let s := motion 0 (fun m => { m with motion := .locked }) (switchingArea .port0 .change)
    let ends := fun (s : State) (code : Byte) (f : ChainRec → Bool) =>
      shows (exec (.returnMux 20 (load code 0 0)) s) (fun t => f (t.run.chains.get 0))
    ready s ∧ (∀ p, scanned s.setup s.run p = false ∧ pastRunout s.setup s.run 0 p = false)
      ∧ ends (switchingArea .caption .planned) 2 (fun x => x.state == .dark && x.target == none) = true
      ∧ ends (switchingArea .caption .fallback) 2 (fun x => x.state == .fallback && x.switchTimer == none) = true
      ∧ ends s 0 (fun x => x.state == .single && x.observed == some .port0 && x.target == none) = true
      ∧ ends (motion 1 (fun m => { m with motion := .runup }) s) 0 (fun x => x.state == .double) = true
      ∧ ends (switchingArea .port0 .change) 0 (fun x => x.state == .switching
          && x.target == some (.caption, .fallback) && x.fromInput == some .port0) = true
      ∧ ends (switchingArea .port0 .desk) 0 (fun x => x.state == .single) = true := by decide

/-- An unexpected selection, in SINGLE and in SWITCHING. -/
theorem test_adopt_notices :
    shows (exec (.returnMux 20 (load 3 0 0)) onAirArea) (fun t => (t.run.chains.get 0).observed == some .black
        && (t.run.chains.get 0).state == .dark
        && t.run.notices.getLast? == some { sweep := 9, body := .adopt 0 .black (some .port0) none }) = true
      ∧ shows (exec (.returnMux 20 (load 2 0 0)) (switchingArea .port0 .desk)) (fun t => t.run.notices
        == [{ sweep := 9, body := .adopt 0 .caption (some .port0) (some .black) }]) = true := by decide

/-- Reel 0 not scanned: no record of it is held or taken. -/
def unscanned : State := motion 0 (fun m => { m with referenced := false }) onAirArea

/-- The state of chain 0 that a MUX report of this input leaves. -/
def muxLeaves (code : Byte) (s : State) : Option (ChainState × Option (Input × SwitchKind)) :=
  (after (exec (.returnMux 20 (load code 0 0)) s)).map (fun t =>
    ((t.run.chains.get 0).state, (t.run.chains.get 0).target))

theorem test_mux_still : (∀ p, NothingToTake unscanned p ∧ pastRunout unscanned.setup unscanned.run 0 p = false)
    ∧ ∀ p, NothingToTake area p ∧ pastRunout area.setup area.run 0 p = false :=
  ⟨fun p => ⟨.inl (by revert p; decide), by revert p; decide⟩,
    fun p => ⟨.inl (by revert p; decide), by revert p; decide⟩⟩

/-- The first report, at a port and at black; an unexpected selection in SINGLE and FALLBACK, and one in HOLDING. -/
theorem test_mux_states :
    muxLeaves 0 area = some (.single, none) ∧ muxLeaves 3 area = some (.dark, none)
      ∧ muxLeaves 1 (motion 0 (fun m => { m with motion := .runup }) area) = some (.double, none)
      ∧ muxLeaves 1 unscanned = some (.double, none) ∧ muxLeaves 2 unscanned = some (.dark, none)
      ∧ muxLeaves 0 (chain 0 (fun x => { x with state := .fallback, observed := some .caption }) unscanned)
        = some (.single, none)
      ∧ muxLeaves 3 (chain 0 (fun x => { x with state := .holding }) unscanned) = some (.holding, none)
      ∧ (after (exec (.returnMux 20 (load 0 0 0)) unscanned)).map State.run = some unscanned.run := by
  refine ⟨by decide, by decide, by decide, by decide, by decide, by decide, by decide, by decide⟩

/-- The held record's position leaves the air: the record completes SUPPRESSED and the chain leaves HOLDING. -/
theorem test_mux_in_holding :
    RolesWorked holdingArea ∧ PortsSingle holdingArea.setup ∧ isOnAir holdingArea.setup holdingArea.run 0 = true
      ∧ shows (exec (.returnMux 20 (load 3 0 0)) holdingArea) (fun t => t.run.chains.get 0
          == { holdingArea.run.chains.get 0 with observed := some .black, hold := none, holdTimer := .idle
                                                 holdSweeps := 24, state := .dark }
        && t.run.notices == holdingArea.run.notices ++ [⟨9, .adopt 0 .black (some .port0) none⟩,
          ⟨9, .cue 0 33 (.change true) .suppressed false 50⟩]) = true := by
  refine ⟨by decide, by decide, by decide, by decide⟩

/-- R90: position 1 carries the picture, its record under HOLD, and reel 0 has a due CHANGE of its own; the picture
passes to position 0. Record 1 completes SUPPRESSED, and record 0 is then held. -/
theorem test_leaving_reel_first :
    let u := scan 0 (fun x => { x with hold := .none, met := none }) (scan 1 (fun x =>
      { x with cursor := 7, hold := .hold, met := some false })
      (motion 1 (fun m => { m with motion := .locked, referenced := true, value := 60 })
      (chain 0 (fun x => { x with observed := some .port1, hold := some (1, .change) }) holdingArea)))
    let page := (u.setup.pages.get 4).set 7 (some changeCue)
    let reels := u.setup.reels.set 1 { slots := #v[some 4, none, none, none], lastPicture := none }
    let w := { u.run with
      roles := u.run.roles.set 0 .next |>.set 1 .onAir, onAir := u.run.onAir.set 0 false |>.set 1 true }
    let s := { u with setup := { u.setup with pages := u.setup.pages.set 4 page, reels := reels }, run := w }
    ready s ∧ RolesWorked s ∧ scanned s.setup s.run 0 = true ∧ scanned s.setup s.run 1 = true
      ∧ shows (exec (.returnMux 20 (load 0 0 0)) s) (fun t =>
        (t.run.chains.get 0).state == .holding && (t.run.chains.get 0).hold == some (0, .change)
        && (t.run.scans.get 0).hold == .hold && (t.run.scans.get 1).hold == .none
        && t.run.notices.drop s.run.notices.length == [⟨9, .adopt 0 .port0 (some .port1) none⟩,
          ⟨9, .cue 1 33 (.change true) .suppressed false 60⟩]) = true := by
  refine ⟨by decide, by decide, by decide, by decide, by decide⟩

/-- A switch that an input neither target nor from ends: with no loss; with one, Fallback off, and on with NEXT READY
and not. -/
theorem test_mux_abandons :
    let s := switchingArea .port1 .desk
    let off := { s with setup := { s.setup with
      modes := s.setup.modes.set 0 { s.setup.modes.get 0 with fallback := false } } }
    let next := lamp 1 (fun l => { l with ready := true }) s
    (s.run.chains.get 0).fromInput = some .black ∧ LossStands s 0 ∧ LossAnswer next 0 .zero 0 .port1 .change
      ∧ muxLeaves 0 (motion 0 (fun m => { m with motion := .locked }) s) = some (.single, none)
      ∧ muxLeaves 2 s = some (.dark, none) ∧ muxLeaves 0 off = some (.single, none)
      ∧ muxLeaves 0 next = some (.switching, some (.port1, .change))
      ∧ muxLeaves 0 s = some (.switching, some (.caption, .fallback)) := by
  refine ⟨by decide, by decide, by decide, by decide, by decide, by decide, by decide, by decide⟩

/-- The notice layouts not shown above. -/
theorem test_notice_layouts :
    let at_ := fun b : NoticeBody => (after (exec (.returnVoid 0 nil13)
      (onRun (fun r => { r with notices := [⟨4, b⟩] }) area))).map (fun t => t.port.loopRet.map Cell.payload)
    at_ (.clear 2 .silent) = some (some (payload13 2 4 2 9))
      ∧ at_ (.cue 2 77 (.change true) .late true (-2)) = some (some (payload13 3 4 2 77 1 1 1 255 255 254))
      ∧ at_ (.blocked 20 (.select .port1) .faulted .unforced) = some (some (payload13 4 4 20 7 1 3 1))
      ∧ at_ (.change 3 none .black .planned 25) = some (some (payload13 5 4 3 255 3 1 25))
      ∧ at_ (.adopt 0 .port1 (some .black) none) = some (some (payload13 6 4 0 1 3 255)) := by decide
theorem test_alarm_notice_layout :
    let s := (slot 75 (fun x => { x with
      pending := true, repeated := true, sweep := some 4, value := some (-3), rule := some (9, .major) })
      area).judged
    shows (exec (.returnVoid 0 nil13) s) (fun t => t.port.loopRet
      == some (Cell.make .notice 40 (payload13 1 9 75 15 4 255 255 253 9))) = true := by decide

theorem test_return_void :
    let s := slot 18 (fun x => { x with pending := true, sweep := some 4, repeated := true }) area
    let u := onRun (fun r => { r with notices := [⟨4, .unref 2 .jump (-1)⟩] }) area
    shows (exec (.returnVoid 0 nil13) s.judged) (fun t => (t.run.slots.get 18).noticed
        && t.port.loopRet == some (Cell.make .notice 40 (payload13 1 9 18 3 4))) = true
      ∧ shows (exec (.returnVoid 0 nil13) u) (fun t => t.run.notices == []
        && t.port.loopRet == some (Cell.make .notice 40 (payload13 7 4 2 0 255 255 255))) = true
      ∧ after (exec (.returnVoid 6 nil13) area) = some (area.shows .ret (Cell.make .void 6 nil13)) := by decide

theorem test_sweep_end :
    let s := motion 1 (fun m => { m with miss := 1 })
      { area with port := { area.port with reportedPositions := area.port.reportedPositions.set 0 true } }
    ready s ∧ shows (exec (.sweepEnd 0 nil13) s) (fun t => (t.run.motions.get 0).miss == 0
      && (t.run.motions.get 1).silent && (t.run.motions.get 2).miss == 1 && (t.run.motions.get 3).miss == 0
      && (t.run.slots.get (slotSilent 1)).pending && t.run.handoffs == []) = true := by decide

/-- Every timer and counter runs, each one sweep from its limit and one more. -/
def countingArea : State :=
  let s := motion 0 (fun m => { m with motion := .runup, runup := some 73 })
    (motion 1 (fun m => { m with motion := .stopping, stop := .running 248 })
      (motion 2 (fun m => { m with motion := .stopped }) area))
  let s := lamp 0 (fun l => { l with lamp := .striking, strikeTimer := some 98 })
    (lamp 1 (fun l => { l with lamp := .settling, settle := some 23 })
      (lamp 2 (fun l => { l with lamp := .lit, dowser := .opened, dwell := 98 }) s))
  let s := chain 0 (fun x => { x with state := .holding, holdTimer := .running 23 })
    (chain 1 (fun x => { x with state := .switching, switchTimer := some 1 }) s)
  onRun (Run.setGate (.gap 8)) s

theorem option_below {o : Option Nat} {k : Nat} (h : o.all (fun n => decide (n + 1 < k)) = true) :
    ∀ n, o = some n → n + 1 < k := by
  intro n e; subst e; simpa using h

theorem test_nothing_due : NothingDue countingArea := by
  refine ⟨fun p => ⟨?_, ?_, ?_, ?_, ?_, ?_⟩, by decide, ?_, fun c => ⟨?_, ?_, ?_⟩⟩
  · revert p; decide
  · exact fun n _ => option_below (by revert p; decide) n
  · intro n _ h
    have all : ∀ q : Fin 8, (match (countingArea.run.motions.get q).stop with
      | .running n => decide (n + 1 < 250) | _ => true) = true := by decide
    have := all p
    rw [h] at this
    exact of_decide_eq_true this
  · exact fun n _ => option_below (by revert p; decide) n
  · exact fun n _ => option_below (by revert p; decide) n
  · revert p; decide
  · intro n h
    have : Gate.gap 8 = Gate.gap n := h
    cases this; decide
  · revert c; decide
  · intro n _ h
    have all : ∀ d : Fin 4, (match (countingArea.run.chains.get d).holdTimer with
      | .running n => decide (n + 1 < (countingArea.setup.modes.get d).holdLimit) | _ => true) = true := by decide
    have := all c
    rw [h] at this
    exact of_decide_eq_true this
  · exact fun n _ => option_below (by revert c; decide) n

theorem test_sweep_counts :
    ready countingArea ∧ shows (exec (.sweepEnd 0 nil13) countingArea) (fun t =>
      (t.run.motions.get 0).runup == some 74 && (t.run.motions.get 1).stop == .running 249
        && (t.run.lamps.get 0).strikeTimer == some 99 && (t.run.lamps.get 1).settle == some 24
        && (t.run.lamps.get 2).dwell == 99 && (t.run.chains.get 0).holdTimer == .running 24
        && (t.run.chains.get 1).switchTimer == some 2 && t.run.gate == .gap 9
        && t.run.slots == countingArea.run.slots) = true := by decide

/-! ### The part's own events -/

theorem test_events_not_due :
    State.reset.port.acting = false
      ∧ after (exec (.ruleFire 0 0) State.reset) = some State.reset
      ∧ (area.run.motions.get 0).motion ≠ .runup ∧ after (exec (.runupExpiry 0) area) = some area
      ∧ (area.run.chains.get 0).state ≠ .holding ∧ after (exec (.holdExpiry 0) area) = some area := by decide

/-- Each row one count short of its event. -/
theorem test_events_one_short :
    let s := countingArea
    let t := motion 2 (fun m => { m with motion := .locked, stall := 1 }) area
    let u := motion 2 (fun m => { m with motion := .locked, stall := 5 }) area
    after (exec (.missCountSilent 0) s) = some s ∧ after (exec (.runupExpiry 0) s) = some s
      ∧ after (exec (.stopExpiry 1) s) = some s ∧ after (exec (.strikeExpiry 0) s) = some s
      ∧ after (exec (.settleExpiry 1) s) = some s ∧ after (exec (.dwellExpiry 2) s) = some s
      ∧ after (exec .staggerGapExpiry s) = some s ∧ after (exec .strikeGrant s) = some s
      ∧ after (exec (.holdExpiry 0) s) = some s ∧ after (exec (.switchExpiry 1) s) = some s
      ∧ after (exec (.stallFlag 2) t) = some t ∧ after (exec (.stallFlag 2) u) = some u
      ∧ after (exec (.stallBreak 2) t) = some t ∧ after (exec (.markRecognised 2) t) = some t
      ∧ after (exec (.ruleFire 2 0) t) = some t := by decide
theorem test_second_miss :
    let s := motion 2 (fun m => { m with miss := 1 }) area
    ready s ∧ shows (exec (.missCountSilent 2) s) (fun t => (t.run.motions.get 2).silent
      && (t.run.slots.get (slotSilent 2)).pending) = true := by decide
theorem test_motion_timers :
    let s := motion 2 (fun m => { m with motion := .runup, runup := some 74 }) area
    let u := motion 2 (fun m => { m with motion := .stopping, stop := .running 249 }) area
    ready s ∧ ready u
      ∧ shows (exec (.runupExpiry 2) s) (fun t => (t.run.motions.get 2).motion == .stopping
          && t.run.orders == [⟨12, .stop⟩] && (t.run.slots.get (slotHalt 2)).pending) = true
      ∧ shows (exec (.stopExpiry 2) u) (fun t => (t.run.motions.get 2).stop == .expired
          && (t.run.slots.get (slotStop 2)).pending) = true := by decide
theorem test_stall :
    let s := motion 2 (fun m => { m with motion := .locked, stall := 2 }) area
    let u := motion 2 (fun m => { m with motion := .locked, stall := 5, referenced := true }) area
    ready s ∧ ready u
      ∧ shows (exec (.stallFlag 2) s) (fun t => (t.run.motions.get 2).stallFlag
          && (t.run.motions.get 2).motion == .locked) = true
      ∧ shows (exec (.stallBreak 2) u) (fun t => (t.run.motions.get 2).motion == .broken
          && (t.run.slots.get (slotBreak 2)).pending && !(t.run.motions.get 2).referenced) = true := by decide

theorem test_stall_unref :
    let u := motion 2 (fun m => { m with motion := .locked, stall := 5, referenced := true, value := -4 }) area
    ready u ∧ shows (exec (.stallBreak 2) u) (fun t => t.run.orders == [⟨12, .stop⟩, ⟨12, .dowserClose⟩]
      && t.run.notices == [{ sweep := 9, body := .unref 2 .brk (-4) }]) = true := by decide

/-- A MARK record, ANNOUNCE at the second mark, the last of reel 2's list; one mark counted, a mark to come. -/
def markArea (marks : Nat) : State :=
  let cue : Cue := { trigger := .mark 2 (some 900), point := 100, action := .announce, tag := 8 }
  let s := scan 2 (fun x => { x with cursor := 7, marks := marks, dotRun := 1, precedingClear := 4 })
    (motion 2 (fun m => { m with value := 120, referenced := true }) area)
  { s with setup := { s.setup with
      reels := s.setup.reels.set 2 { slots := #v[some 5, none, none, none], lastPicture := none }
      pages := s.setup.pages.set 5 ((s.setup.pages.get 5).set 7 (some cue)) } }

theorem test_mark_counted :
    let s := markArea 0
    ready s ∧ scanned s.setup s.run 2 = true
      ∧ (cursorRecord s.setup s.run 2).map (·.map (·.trigger)) = some (some (.mark 2 (some 900)))
      ∧ shows (exec (.markRecognised 2) s) (fun t => (t.run.scans.get 2).marks == 1) = true := by decide
theorem test_mark_completes :
    let s := markArea 1
    ready s ∧ listLength s.setup 2 = 8 ∧ after (exec (.markRecognised 2) s)
      = some { s with
          run := { s.run with
            scans := s.run.scans.set 2 { s.run.scans.get 2 with dotRun := 2, marks := 0, cursor := 8 }
            notices := [{ sweep := 9, body := .cue 2 8 .announce .done false 120 }] } } := by decide

/-- Reel p's last record, a MARK record with this action at the first mark, one DOT short of it; chain 0 in a
state with its picture on a port's input, armed or not; a strike gate that is not FREE. -/
def cueArea (p : Fin 8) (a : Action) (on : Input) (state : ChainState) (armed : Bool) : State :=
  let cue : Cue := { trigger := .mark 1 none, point := 100, action := a, tag := 8 }
  let s := scan p (fun x => { x with cursor := 7, dotRun := 1, precedingClear := 4 })
    (motion p (fun m => { m with motion := .locked, value := 120, referenced := true })
      (chain 0 (fun x => { x with state := state, observed := some on }) (onRun (Run.setGate (.gap 1)) area)))
  { s with setup := { s.setup with
      modes := s.setup.modes.set 0 { s.setup.modes.get 0 with armed := armed }
      reels := s.setup.reels.set p { slots := #v[some 5, none, none, none], lastPicture := none }
      pages := s.setup.pages.set 5 ((s.setup.pages.get 5).set 7 (some cue)) } }

/-- The area meets MarkFires for reel 0 and reel 2, whatever the action and the chain. -/
theorem test_mark_fires (a : Action) (on : Input) (state : ChainState) (armed : Bool) :
    MarkFires (cueArea 0 a on state armed) 0 { trigger := .mark 1 none, point := 100, action := a, tag := 8 }
      ∧ MarkFires (cueArea 2 a on state armed) 2
        { trigger := .mark 1 none, point := 100, action := a, tag := 8 } := by
  have below : (100 : Int) ≤ 120 := by decide
  refine ⟨⟨⟨rfl, rfl, below, rfl, rfl, ?_, rfl, ?_, ?_⟩, ⟨none, rfl⟩, ?_, rfl, ?_⟩,
    ⟨⟨rfl, rfl, below, rfl, rfl, ?_, rfl, ?_, ?_⟩, ⟨none, rfl⟩, ?_, rfl, ?_⟩⟩ <;>
    exact of_decide_eq_true rfl

/-- How the record of reel p ends, if it does, and the orders queued. -/
def cueEnds (p : Fin 8) (s : State) : Option (Option CueOutcome × List OrderEntry) :=
  (after (exec (.markRecognised p) s)).map (fun t =>
    (match t.run.notices with
      | [⟨_, .cue _ _ _ how _ _⟩] => some how
      | _ => none, t.run.orders))

/-- VOID, SUPPRESSED and a deferred record, at the chain states and settings that bring them. -/
theorem test_cue_tests :
    ready (cueArea 0 .caption .port0 .single true) ∧ chainOf area.setup 0 = some (0, .zero)
      ∧ pairValid area.setup 0 = true ∧ chainOf area.setup 2 = none
      ∧ cueEnds 2 (cueArea 2 (.preroll true) .port0 .single true) = some (some .void, [])
      ∧ cueEnds 2 (cueArea 2 .caption .port0 .single true) = some (some .void, [])
      ∧ cueEnds 0 (cueArea 0 .caption .port1 .single true) = some (some .suppressed, [])
      ∧ cueEnds 0 (cueArea 0 .lampPartner .port0 .single false) = some (some .suppressed, [])
      ∧ cueEnds 0 (cueArea 0 (.change false) .port0 .switching true) = some (none, [])
      ∧ cueEnds 0 (cueArea 0 .caption .port0 .double true) = some (some .done, [⟨20, .select .caption⟩]) := by
  decide
theorem test_cue_pair_not_valid :
    let s := cueArea 0 .lampPartner .port0 .single true
    let s := { s with setup := { s.setup with positions := s.setup.positions.set 1 none } }
    pairValid s.setup 0 = false ∧ cueEnds 0 s = some (some .void, []) := by decide

/-- The partner's actions, its lamp DARK where a strike is asked for. -/
theorem test_cue_partner_actions :
    let primed := fun a => lamp 1 (fun l => { l with lamp := .lit, primed := true }) (cueArea 0 a .port0 .single true)
    let ready := fun a => lamp 1 (fun l => { l with lamp := .lit, ready := true }) (cueArea 0 a .port0 .double true)
    partnerOf area.setup 0 = some 1 ∧ chainOf area.setup 1 = some (0, .one)
      ∧ cueEnds 0 (cueArea 0 (.preroll false) .port0 .holding true)
        = some (some .done, [⟨11, .dowserOpen⟩, ⟨11, .start⟩])
      ∧ cueEnds 0 (primed (.preroll true)) = some (some .done, [⟨11, .dowserOpen⟩, ⟨11, .start⟩])
      ∧ cueEnds 0 (ready (.change true)) = some (some .done, [⟨20, .select .port1⟩])
      ∧ cueEnds 0 (cueArea 0 (.change false) .port0 .single true) = some (some .done, [⟨20, .select .port1⟩])
      ∧ cueEnds 0 (cueArea 0 (.change false) .port0 .holding true) = some (some .done, [])
      ∧ cueEnds 0 (cueArea 0 .lampPartner .port0 .single true) = some (some .done, []) := by decide
theorem test_cue_lamp_partner :
    shows (exec (.markRecognised 0) (lamp 1 (fun l => { l with lamp := .dark })
      (cueArea 0 .lampPartner .port0 .single true))) (fun t => t.run.strikeQueue == [⟨1, .urgent⟩]
        && (t.run.lamps.get 1).lamp == .queued) = true := by decide

/-- LAMP DOWN and TAIL STOP: disarmed, on air, and off air. -/
theorem test_cue_own_actions :
    cueEnds 0 (cueArea 0 .tailStop .port1 .single false) = some (some .suppressed, [])
      ∧ shows (exec (.markRecognised 0) (cueArea 0 .lampDown .port0 .single true))
          (fun t => (t.run.scans.get 0).hold == .wait && (t.run.scans.get 0).met == some false) = true
      ∧ cueEnds 0 (cueArea 0 .tailStop .port1 .single true)
        = some (some .done, [⟨10, .stop⟩, ⟨10, .dowserClose⟩])
      ∧ shows (exec (.markRecognised 2) (lamp 2 (fun l => { l with lamp := .lit })
          (cueArea 2 .lampDown .port1 .single true)))
          (fun t => t.run.orders == [⟨12, .lampDown⟩] && (t.run.lamps.get 2).downPending
            && (t.run.lamps.get 2).lamp == .dark) = true := by decide

/-- LAMP DOWN by a record, of a QUEUED lamp and of a STRIKING one. -/
theorem test_cue_lamp_down_of_strikes :
    let q := onRun (Run.joinStrike ⟨2, .urgent⟩) (lamp 2 (fun l => { l with lamp := .queued })
      (cueArea 2 .lampDown .port0 .single true))
    let u := onRun (Run.setGate (.striking 2)) (lamp 2 (fun l => { l with lamp := .striking, strikeTimer := some 3 })
      (cueArea 2 .lampDown .port0 .single true))
    ready q ∧ ready u ∧ StrikesSound q.run ∧ StrikesSound u.run
      ∧ shows (exec (.markRecognised 2) q) (fun t => t.run.strikeQueue == [] && t.run.gate == .gap 1
        && (t.run.lamps.get 2).lamp == .dark && t.run.orders == [⟨12, .lampDown⟩]) = true
      ∧ shows (exec (.markRecognised 2) u) (fun t => t.run.gate == .gap 0 && (t.run.lamps.get 2).strikeTimer == none
        && (t.run.lamps.get 2).lamp == .dark && (t.run.lamps.get 2).downPending) = true := by decide

/-- A hold begun, with the strike asked for; one not taken. -/
theorem test_holds_begin :
    let s := lamp 1 (fun l => { l with lamp := .dark }) (cueArea 0 (.change true) .port0 .single true)
    ready s ∧ PortsSingle s.setup ∧ (s.run.lamps.get 1).primed = false ∧ (s.run.lamps.get 1).ready = false
      ∧ shows (exec (.markRecognised 0) s) (fun t => (t.run.chains.get 0).state == .holding
        && (t.run.chains.get 0).hold == some (0, .change) && (t.run.scans.get 0).hold == .hold
        && t.run.strikeQueue == [⟨1, .urgent⟩]) = true
      ∧ cueEnds 0 (cueArea 0 (.preroll true) .port0 .dark true) = some (some .heldOut, []) := by decide

/-- A hold failed at once, with Fallback on and off. -/
theorem test_holds_fail :
    let failed := motion 1 (fun m => { m with silent := true }) (cueArea 0 (.change true) .port0 .single true)
    let plain := { failed with setup := { failed.setup with
      modes := failed.setup.modes.set 0 { failed.setup.modes.get 0 with fallback := false } } }
    cueEnds 0 failed = some (some .fault, [⟨20, .select .caption⟩])
      ∧ shows (exec (.markRecognised 0) failed) (fun t => (t.run.slots.get (slotChangeFailed 0)).pending
        && (t.run.chains.get 0).target == some (.caption, .fallback)) = true
      ∧ shows (exec (.markRecognised 0) plain) (fun t => (t.run.slots.get (slotChangeFailed 0)).pending
        && (t.run.chains.get 0).state == .single && t.run.orders == []) = true := by decide

theorem test_lamp_counters :
    let s := lamp 2 (fun l => { l with lamp := .settling, settle := some 24, dowser := .opened, dwell := 99 })
      (motion 2 (fun m => { m with motion := .stopped, referenced := true, signals := 1 }) area)
    ready s ∧ partnerOf s.setup 2 = none
      ∧ after (exec (.settleExpiry 2) s) = some (lamp 2 (fun l => { l with
          lamp := .lit, settle := none, primed := true }) s)
      ∧ shows (exec (.dwellExpiry 2) s) (fun t => (t.run.lamps.get 2).dwell == 0
          && t.run.orders == [⟨12, .dowserClose⟩] && (t.run.slots.get (slotDwell 2)).pending) = true := by decide
/-- Position 1 beside position 0 on air, its lamp one sweep from LIT: STOPPED with FILM, or LOCKED with its dowser
open. -/
def settlingArea (m : Motion) (s : State) : State :=
  lamp 1 (fun l => { l with lamp := .settling, settle := some 24, dowser := .opened })
    (motion 1 (fun x => { x with motion := m, signals := 1, referenced := true }) s)

/-- The hold of reel 0 with an action of the other kind. -/
def prerollArea : State :=
  let s := chain 0 (fun x => { x with hold := some (0, .preroll) }) holdingArea
  let page := (s.setup.pages.get 3).set 7 (some { changeCue with action := .preroll true })
  { s with setup := { s.setup with pages := s.setup.pages.set 3 page } }

/-- The partner's reel has nothing to take, or neither condition changes. -/
theorem test_settle_beside_partner :
    let s := settlingArea .stopped unscanned
    let u := settlingArea .stopping holdingArea
    let lit := fun prime => fun l : LampRec => { l with lamp := .lit, settle := none, primed := prime }
    ready s ∧ partnerOf s.setup 1 = some 0 ∧ scanned s.setup s.run 0 = false
      ∧ after (exec (.settleExpiry 1) s) = some (lamp 1 (lit true) s)
      ∧ ready u ∧ scanned u.setup u.run 0 = true ∧ (u.run.lamps.get 1).primed = false
      ∧ after (exec (.settleExpiry 1) u) = some (lamp 1 (lit false) u) := by
  refine ⟨by decide, by decide, by decide, by decide, by decide, by decide, by decide, by decide⟩
theorem test_settle_premises :
    let s := settlingArea .stopped prerollArea
    let u := settlingArea .locked holdingArea
    ready s ∧ ready u ∧ PortsSingle u.setup ∧ chainOf u.setup 1 = some (0, .one)
      ∧ (s.run.chains.get 0).hold = some (0, .preroll) ∧ (u.run.chains.get 0).hold = some (0, .change)
      ∧ (u.run.chains.get 0).observed = some (Port.input (Port.other .one)) ∧ listLength u.setup 0 = 8
      ∧ cursorRecord s.setup s.run 0 = some (some { changeCue with action := .preroll true })
      ∧ (∀ w a, portPosition s.setup 0 w = some a → pastRunout s.setup s.run 0 a = false) := by
  refine ⟨by decide, by decide, by decide, by decide, by decide, by decide, by decide, by decide, by decide, ?_⟩
  intro w a h; cases w <;> revert a <;> decide

/-- A held PREROLL completes DONE, a held CHANGE LATE with its changeover. -/
theorem test_settle_ends_hold :
    shows (exec (.settleExpiry 1) (settlingArea .stopped prerollArea)) (fun t =>
        t.run.orders.drop prerollArea.run.orders.length == [⟨11, .dowserOpen⟩, ⟨11, .start⟩]
        && t.run.notices.getLast? == some ⟨9, .cue 0 33 (.preroll true) .done false 50⟩
        && (t.run.chains.get 0).state == .single && (t.run.chains.get 0).holdSweeps == 24) = true
      ∧ shows (exec (.settleExpiry 1) (settlingArea .locked holdingArea)) (fun t =>
        t.run.notices.getLast? == some ⟨9, .cue 0 33 (.change true) .late false 50⟩
        && (t.run.chains.get 0).target == some (.port1, .change)
        && (t.run.chains.get 0).holdSweeps == 24) = true := by
  refine ⟨by decide, by decide⟩
/-- A held CHANGE completes LATE also with the on-air position past runout, the flags worked as they stand. -/
theorem test_settle_late_past_runout :
    let s := settlingArea .locked (onRun (fun r => { r with
      runoutRaised := r.runoutRaised.set 1 true, tailStopped := r.tailStopped.set 0 true }) holdingArea)
    let reel := { s.setup.reels.get 0 with lastPicture := some 10 }
    let u := { s with setup := { s.setup with reels := s.setup.reels.set 0 reel } }
    ready u ∧ pastRunout u.setup u.run 0 0 = true ∧ pastRunout u.setup u.run 0 1 = false
      ∧ shows (exec (.settleExpiry 1) u) (fun t => (t.run.chains.get 0).target == some (.port1, .change)
        && t.run.slots == u.run.slots && !(t.run.runoutRaised.get 1) && t.run.tailStopped.get 0) = true := by
  refine ⟨by decide, by decide, by decide, by decide⟩

theorem test_strike_expiry :
    let s := onRun (Run.setGate (.striking 2)) (lamp 2 (fun l => { l with lamp := .striking
                                                                          strikeTimer := some 99 }) area)
    ready s ∧ chainOf s.setup 2 = none
      ∧ shows (exec (.strikeExpiry 2) s) (fun t => (t.run.lamps.get 2).lamp == .dark
          && (t.run.lamps.get 2).downPending && t.run.gate == .gap 0 && t.run.orders == [⟨12, .lampDown⟩]
          && (t.run.slots.get (slotStrike 2)).pending) = true := by decide

/-- Position 0 at a port, its strike run out: off air, and on air with its LAMP UP still waiting. -/
theorem test_strike_expiry_at_port :
    let s := orders [⟨10, .lampUp⟩] (onRun (Run.setGate (.striking 0))
      (lamp 0 (fun l => { l with lamp := .striking, strikeTimer := some 99 }) area))
    let u := chain 0 (fun x => { x with observed := some .port0, state := .single }) s
    ready s ∧ ready u ∧ StrikesSound s.run ∧ isOnAir s.setup s.run 0 = false ∧ isOnAir u.setup u.run 0 = true
      ∧ shows (exec (.strikeExpiry 0) s) (fun t => t.run.orders == [⟨10, .lampDown⟩]
          && (t.run.lamps.get 0).downPending) = true
      ∧ shows (exec (.strikeExpiry 0) u) (fun t => t.run.orders == [] && !(t.run.lamps.get 0).downPending
          && (t.run.lamps.get 0).lamp == .dark && t.run.gate == .gap 0) = true := by decide
theorem test_gap_expiry :
    let s := onRun (Run.joinStrike ⟨2, .urgent⟩) (onRun (Run.setGate (.gap 9))
      (lamp 2 (fun l => { l with lamp := .queued, downPending := true }) area))
    ready s ∧ (∀ x ∈ s.run.strikeQueue, (s.run.lamps.get x.position).downPending = true)
      ∧ after (exec .staggerGapExpiry s) = some (onRun (Run.setGate .free) s) := by decide
theorem test_strike_grant :
    let s := onRun (fun r => { r with strikeQueue := [⟨0, .ordinary⟩, ⟨2, .urgent⟩, ⟨1, .ordinary⟩] })
      (lamp 2 (fun l => { l with lamp := .queued }) area)
    ready s ∧ partnerOf s.setup 2 = none ∧ after (exec .strikeGrant s) = some { s with
      run := { s.run with
        gate := .striking 2
        strikeQueue := [⟨0, .ordinary⟩, ⟨1, .ordinary⟩]
        lamps := s.run.lamps.set 2 { s.run.lamps.get 2 with lamp := .striking, strikeTimer := some 0 }
        orders := [⟨12, .lampUp⟩] } } := by decide

/-- The grant to a position of a valid pair. -/
theorem test_strike_grant_pair :
    let s := onRun (Run.joinStrike ⟨1, .urgent⟩) (lamp 1 (fun l => { l with lamp := .queued }) area)
    ready s ∧ StrikesSound s.run ∧ partnerOf s.setup 1 = some 0 ∧ after (exec .strikeGrant s) = some { s with
      run := { s.run with
        gate := .striking 1
        strikeQueue := []
        lamps := s.run.lamps.set 1 { s.run.lamps.get 1 with lamp := .striking, strikeTimer := some 0 }
        orders := [⟨11, .lampUp⟩] } } := by decide

theorem test_hold_expiry :
    ready holdingArea ∧ chainOf holdingArea.setup 0 = some (0, .zero) ∧ partnerOf holdingArea.setup 0 = some 1
      ∧ scanned holdingArea.setup holdingArea.run 0 = true
      ∧ cursorRecord holdingArea.setup holdingArea.run 0 = some (some changeCue)
      ∧ shows (exec (.holdExpiry 0) holdingArea) (fun t => (t.run.slots.get (slotChangeFailed 0)).pending
          && t.run.notices == holdingArea.run.notices
            ++ [{ sweep := 9, body := .cue 0 33 (.change true) .heldOut false 50 }]
          && (t.run.chains.get 0).target == some (.caption, .fallback)
          && (t.run.chains.get 0).holdSweeps == 25) = true := by decide

/-- The held record is the last of its list: the chain leaves HOLDING and the cursor has passed it. -/
theorem test_hold_expiry_last :
    listLength holdingArea.setup 0 = 8 ∧ isOnAir holdingArea.setup holdingArea.run 0 = true
      ∧ shows (exec (.holdExpiry 0) holdingArea) (fun t => (t.run.scans.get 0).cursor == 8
          && (t.run.chains.get 0).state == .switching && (t.run.chains.get 0).hold == none) = true := by decide
theorem test_switch_expiry :
    let s := chain 0 (fun x => { x with state := .switching, observed := some .black
                                        target := some (.port1, .desk), switchTimer := some 2 }) area
    ready s ∧ shows (exec (.switchExpiry 0) s) (fun t => (t.run.chains.get 0).state == .dark
      && (t.run.slots.get (slotSwitchFailed 0)).pending) = true := by decide
/-- The on-air position past runout, its reel with a due CHANGE that the switch has deferred; the switch a DESK one to
the port observed, one sweep from its limit. -/
def deferringArea : State :=
  let s := scan 0 (fun x => { x with hold := .none, met := some false }) (chain 0 (fun x =>
    { x with state := .switching, hold := none, holdTimer := .idle, target := some (.port0, .desk)
             fromInput := some .port0, select := .sent, switchTimer := some 2 }) holdingArea)
  let reel := { s.setup.reels.get 0 with lastPicture := some 10 }
  { s with setup := { s.setup with reels := s.setup.reels.set 0 reel } }

/-- R119: the return from SWITCHING, by expiry and by confirmation with no role changed, evaluates the runout where
the walk has begun a HOLD: RUNOUT is raised and no switch ordered (R120). -/
theorem test_return_into_hold_evaluated :
    let held := fun t : State => (t.run.chains.get 0).state == .holding && (t.run.chains.get 0).target == none
      && (t.run.slots.get (slotRunout 0)).pending && t.run.runoutRaised.get 0
    ready deferringArea ∧ RolesWorked deferringArea
      ∧ pastRunout deferringArea.setup deferringArea.run 0 0 = true
      ∧ shows (exec (.switchExpiry 0) deferringArea) held = true
      ∧ shows (exec (.returnMux 20 (load 0 0 0)) deferringArea) held = true := by
  refine ⟨by decide, by decide, by decide, by decide, by decide⟩

/-- R116: position 1 FAULTED already, a CHANGE to it QUEUED: it leaves the air, and the switch stands; its lamp fault
set now, the switch turns to the fallback input. -/
theorem test_overtaken_by_new_fault_alone :
    let s := chain 0 (fun x => { x with observed := some .port0, state := .switching, select := .queued
                                        target := some (.port1, .change) })
      (lamp 1 (fun l => { l with fault := true }) (orders [⟨20, .select .port1⟩] area))
    let leaves := fun (was : Role) (onAir : Bool) =>
      let r := workRoles s.env { s.run with roles := s.run.roles.set 1 was, onAir := s.run.onAir.set 1 onAir }
      ((r.chains.get 0).target, r.orders)
    roleDiffers s.env { s.run with roles := s.run.roles.set 1 .faulted, onAir := s.run.onAir.set 1 true } 1 = true
      ∧ leaves .faulted true = (some (.port1, .change), [⟨20, .select .port1⟩])
      ∧ leaves .next false = (some (.caption, .fallback), [⟨20, .select .caption⟩]) := by
  refine ⟨by decide, by decide, by decide⟩

/-- R119: position 1, FAULTED by its lamp and past runout, running off air: SILENT alone brings no tail stop, a change
of motion state does. -/
theorem test_silent_alone_no_runout :
    let s := motion 1 (fun m => { m with motion := .locked, referenced := true, value := 50, silent := true })
      (lamp 1 (fun l => { l with fault := true }) area)
    let u := { s with setup := { s.setup with
      reels := s.setup.reels.set 1 { s.setup.reels.get 1 with lastPicture := some 5 } } }
    let r := { u.run with roles := u.run.roles.set 1 .faulted }
    (takeHandoff u.env (.chainMotion 1 false) r).orders = []
      ∧ (takeHandoff u.env (.chainMotion 1 true) r).orders = [⟨11, .stop⟩, ⟨11, .dowserClose⟩] := by
  refine ⟨by decide, by decide⟩

theorem test_rule_fires :
    ready busyArea ∧ shows (exec (.ruleFire 0 0) busyArea) (fun t => (t.run.slots.get (slotRule 0)).pending
      && (t.run.slots.get (slotRule 0)).rule == some (2, .minor)
      && (t.run.counters.get 2).get 0 == 1) = true := by decide

/-- Rules 2 and 5, both brought to their persistence for position 0 by one report. -/
def twoRules (a b : RuleAction) (s : State) : State :=
  let rule := fun x : RuleAction => { Rule.initial with active := true, positions := 1, mask := 8, action := x }
  { s with setup := { s.setup with rules := (s.setup.rules.set 2 (rule a)).set 5 (rule b) } }

/-- Each action alone, two at once in rule order, and a LOSS in no chain. -/
theorem test_rule_actions :
    let queued := fun s : State => (after (exec (.ruleFire 0 0) s)).map (fun t => t.run.orders)
    let alone := { area with setup := { area.setup with chains := Vector.replicate 4 none } }
    ready (twoRules .stop .dowser area) ∧ isOnAir area.setup area.run 0 = false
      ∧ chainOf alone.setup 0 = none
      ∧ queued (twoRules .none .none area) = some []
      ∧ queued (twoRules .dowser .none area) = some [⟨10, .dowserClose⟩]
      ∧ queued (twoRules .dowser .stop area) = some [⟨10, .dowserClose⟩, ⟨10, .stop⟩]
      ∧ queued (twoRules .loss .dowser area) = some [⟨10, .stop⟩, ⟨10, .dowserClose⟩]
      ∧ queued (twoRules .none .loss alone) = some [⟨10, .stop⟩, ⟨10, .dowserClose⟩]
      ∧ queued (twoRules .stop .none onAirArea)
        = some [⟨10, .stop⟩, ⟨10, .lampDown⟩, ⟨10, .dowserClose⟩] := by
  refine ⟨by decide, by decide, by decide, by decide, by decide, by decide, by decide, by decide, by decide⟩
theorem test_rules_fired_in_order :
    let s := twoRules .stop .dowser area
    (∀ j : Fin 16, j ∈ [(2 : Fin 16), 5] ↔ ruleFires s.env s.run 0 0 .unreported j = true)
      ∧ [(2 : Fin 16), 5].Pairwise (· < ·) := by
  refine ⟨by decide, by decide⟩

/-- A rule with action LOSS, one report from its persistence, for position 0, which carries chain 0's picture. -/
def lossArea (fallback : Bool) (s : State) : State :=
  { s with setup := { s.setup with
      modes := s.setup.modes.set 0 { s.setup.modes.get 0 with fallback := fallback }
      rules := s.setup.rules.set 2
        { Rule.initial with active := true, positions := 1, mask := 8, action := .loss } } }

/-- The same with position 1's lamp in a state, READY or not. -/
def withPartner (l : LampState) (isReady : Bool) : State :=
  onRun (Run.setGate (.gap 1)) (lamp 1 (fun x => { x with lamp := l, ready := isReady }) unscanned)

/-- What the loss makes of the chain's state and target, and the order queued last. -/
def lossTakes (s : State) : Option (ChainState × Option (Input × SwitchKind) × Option OrderEntry) :=
  (after (exec (.ruleFire 0 0) s)).map (fun t =>
    ((t.run.chains.get 0).state, (t.run.chains.get 0).target, t.run.orders.getLast?))

theorem test_loss_premises :
    let s := lossArea true unscanned
    ready s ∧ PortsSingle s.setup ∧ chainOf s.setup 0 = some (0, .zero) ∧ portPosition s.setup 0 .one = some 1
      ∧ scanned s.setup s.run 0 = false ∧ scanned s.setup s.run 1 = false
      ∧ (s.run.chains.get 0).observed = some .port0 := by decide
theorem test_loss_in_holding :
    let s := lossArea true holdingArea
    ready s ∧ scanned s.setup s.run 0 = true ∧ partnerOf s.setup 0 = some 1
      ∧ shows (exec (.ruleFire 0 0) s) (fun t => t.run.notices.getLast?
          == some { sweep := 9, body := .cue 0 33 (.change true) .fault false 50 }
        && (t.run.chains.get 0).holdSweeps == 24 && (t.run.scans.get 0).cursor == 8
        && (t.run.chains.get 0).target == some (.caption, .fallback)) = true
      ∧ pastRunout s.setup s.run 0 0 = false ∧ pastRunout s.setup s.run 0 1 = false
      ∧ shows (exec (.ruleFire 0 0) (lossArea false holdingArea)) (fun t =>
          (t.run.chains.get 0).state == .single && (t.run.chains.get 0).hold == none) = true := by decide
/-- The other port past runout and running: its tail stopped flag set, the loss in HOLDING orders the switch alone. -/
theorem test_loss_in_holding_tail_stopped :
    let s := lossArea true (onRun (fun r => { r with tailStopped := r.tailStopped.set 1 true })
      (motion 1 (fun m => { m with motion := .locked, referenced := true, value := 50 }) holdingArea))
    let reel := { s.setup.reels.get 1 with lastPicture := some 10 }
    let u := { s with setup := { s.setup with reels := s.setup.reels.set 1 reel } }
    ready u ∧ PortsSingle u.setup ∧ pastRunout u.setup u.run 0 1 = true ∧ scanned u.setup u.run 1 = false
      ∧ lossTakes u = some (.switching, some (.caption, .fallback), some ⟨20, .select .caption⟩)
      ∧ shows (exec (.ruleFire 0 0) u) (fun t => t.run.tailStopped.get 1) = true := by
  refine ⟨by decide, by decide, by decide, by decide, by decide, by decide⟩
theorem test_loss_answered :
    lossTakes (lossArea true (withPartner .lit true))
        = some (.switching, some (.port1, .change), some ⟨20, .select .port1⟩)
      ∧ lossTakes (lossArea true (withPartner .lit false))
        = some (.switching, some (.caption, .fallback), some ⟨20, .select .caption⟩) := by decide
theorem test_loss_left :
    lossTakes (lossArea false unscanned) = some (.single, none, some ⟨10, .lampDown⟩)
      ∧ lossTakes (lossArea true (chain 0 (fun x => { x with state := .switching }) unscanned))
        = some (.switching, none, some ⟨10, .lampDown⟩) := by decide
theorem test_loss_asks_strike :
    shows (exec (.ruleFire 0 0) (lossArea true (withPartner .dark false)))
        (fun t => t.run.strikeQueue == [⟨1, .urgent⟩] && (t.run.lamps.get 1).lamp == .queued) = true := by decide

/-- Chain 0 in SWITCHING, one sweep from its limit, its SELECT QUEUED behind another order; position 1's lamp in a
state, READY or not; position 0 running or not. -/
def expiringArea (i : Option Input) (runs : Bool) (l : LampState) (isReady : Bool) : State :=
  chain 0 (fun x => { x with observed := i, state := .switching, target := some (.caption, .planned), fromInput := i
                             select := .queued, switchTimer := some 2 })
    (motion 0 (fun m => { m with motion := if runs then .locked else .stopping })
      (orders [⟨10, .start⟩, ⟨20, .select .caption⟩] (withPartner l isReady)))

/-- The state, target, strike queue and orders that the expiry leaves. -/
def expiryLeaves (s : State) :
    Option (ChainState × Option (Input × SwitchKind) × List StrikeEntry × List OrderEntry) :=
  (after (exec (.switchExpiry 0) s)).map (fun t =>
    ((t.run.chains.get 0).state, (t.run.chains.get 0).target, t.run.strikeQueue, t.run.orders))

theorem test_switch_expiry_premises :
    let s := expiringArea (some .port0) false .lit true
    ready s ∧ PortsSingle s.setup ∧ (∀ p, scanned s.setup s.run p = false ∧ pastRunout s.setup s.run 0 p = false)
      ∧ LossStands s 0 ∧ LossAnswer s 0 .zero 0 .port1 .change
      ∧ ¬ LossStands (expiringArea (some .port0) true .lit true) 0 := by
  refine ⟨by decide, by decide, by decide, by decide, by decide, by decide⟩
theorem test_switch_expiry_settles :
    let off := expiringArea (some .port0) false .lit true
    expiryLeaves (expiringArea none false .lit true) = some (.unknown, none, [], [⟨10, .start⟩])
      ∧ expiryLeaves (expiringArea (some .port0) true .lit true) = some (.single, none, [], [⟨10, .start⟩])
      ∧ expiryLeaves (motion 1 (fun m => { m with motion := .runup }) (expiringArea (some .port0) true .lit true))
        = some (.double, none, [], [⟨10, .start⟩])
      ∧ expiryLeaves { off with setup := { off.setup with
          modes := off.setup.modes.set 0 { off.setup.modes.get 0 with fallback := false } } }
        = some (.single, none, [], [⟨10, .start⟩]) := by
  refine ⟨by decide, by decide, by decide, by decide⟩
theorem test_switch_expiry_answers_loss :
    expiryLeaves (expiringArea (some .port0) false .lit true)
        = some (.switching, some (.port1, .change), [], [⟨10, .start⟩, ⟨20, .select .port1⟩])
      ∧ expiryLeaves (expiringArea (some .port0) false .lit false)
        = some (.switching, some (.caption, .fallback), [], [⟨10, .start⟩, ⟨20, .select .caption⟩])
      ∧ expiryLeaves (expiringArea (some .port0) false .dark false)
        = some (.switching, some (.caption, .fallback), [⟨1, .urgent⟩], [⟨10, .start⟩, ⟨20, .select .caption⟩]) := by
  refine ⟨by decide, by decide, by decide⟩

end Sys2Proof.Tests
end

section
/-! PROOFS. The cells that pass through on each leg (O13, O14): the kinds no block takes, whether RESET is held
(R4), the monitor is SEARCHING or LOST (R15), or the part acts (R9, R14). -/

namespace Sys2Proof.Machine

/-! ### The kinds that pass through -/

/-- R9: no block takes these kinds on the outbound leg; a TAIL there does not reach `takeTail`. -/
@[simp] theorem takeOutbound_passKind (k : OutboundPassKind) (c : Cell) (s : State) :
    takeOutbound k.kind c s = forward c s := by
  cases k <;> rfl

/-- R14: no block takes these kinds on the return leg; a HEAD there does not reach `takeHead`. -/
@[simp] theorem takeReturn_passKind (k : ReturnPassKind) (c : Cell) (s : State) :
    takeReturn k.kind c s = forward c s := by
  cases k <;> rfl

theorem outboundPassKind_ne_head (k : OutboundPassKind) : k.kind ≠ .head := by
  cases k <;> decide

@[simp] theorem isOutboundHead_ret (c : Cell) : c.isOutboundHead .ret = false := rfl

/-- R15 lets the part act on no cell of these kinds while it is not LOCKED. -/
@[simp] theorem isOutboundHead_passKind (k : OutboundPassKind) (st : Byte) (m : Payload) :
    (Cell.make k.kind st m).isOutboundHead .outbound = false := by
  simp [Cell.isOutboundHead, outboundPassKind_ne_head]

/-! ### Every supplied part, held or not, in every monitor state -/

/-- R4, R15: a cell other than an outbound HEAD is forwarded by every supplied part once the part that acts
forwards it. -/
theorem receive_shows_of_acting {s : State} (hp : s.port.powered = true) (hr : s.contactRight) {l : Leg} {c : Cell}
    (hh : c.isOutboundHead l = false) (ha : s.acting → receive l c s = s.shows l c) :
    receive l c s = s.shows l c := by
  cases held : s.port.resetHeld with
  | true => exact receive_ignored hp hr l c (.inl held)
  | false =>
    by_cases locked : s.port.monitor = .locked
    · exact ha (acting_iff.2 ⟨hp, held, locked⟩)
    · exact receive_unlocked hp hr l c locked hh

theorem receive_outboundPass {s : State} (hp : s.port.powered = true) (hr : s.contactRight)
    (k : OutboundPassKind) (st : Byte) (m : Payload) :
    receive .outbound (Cell.make k.kind st m) s = s.shows .outbound (Cell.make k.kind st m) :=
  receive_shows_of_acting hp hr (isOutboundHead_passKind k st m) fun acts =>
    receive_forward acts hr .outbound k.kind st m (takeOutbound_passKind k _ s)

theorem receive_returnPass {s : State} (hp : s.port.powered = true) (hr : s.contactRight)
    (k : ReturnPassKind) (st : Byte) (m : Payload) :
    receive .ret (Cell.make k.kind st m) s = s.shows .ret (Cell.make k.kind st m) :=
  receive_shows_of_acting hp hr (isOutboundHead_ret _) fun acts =>
    receive_forward acts hr .ret k.kind st m (takeReturn_passKind k _ s)

/-! ### The rows' meanings -/

theorem exec_outboundPassthrough (k : OutboundPassKind) (st : Byte) (m : Payload) (s : State) :
    exec (.outboundPassthrough k st m) s = .next (receive .outbound (Cell.make k.kind st m) s) := rfl

theorem exec_returnPassthrough (k : ReturnPassKind) (st : Byte) (m : Payload) (s : State) :
    exec (.returnPassthrough k st m) s = .next (receive .ret (Cell.make k.kind st m) s) := rfl

end Sys2Proof.Machine

namespace Sys2Proof.Proofs

open Sys2Proof.Machine

/-- Settles O13: R9, and with it R4 and R15, since the part may be held or not LOCKED. -/
theorem outboundPassthroughForwarded : Obligations.OutboundPassthroughForwarded := by
  intro k st m s hp hr
  rw [exec_outboundPassthrough, receive_outboundPass hp hr]

/-- Settles O14: R14, and with it R4 and R15, since the part may be held or not LOCKED. -/
theorem returnPassthroughForwarded : Obligations.ReturnPassthroughForwarded := by
  intro k st m s hp hr
  rw [exec_returnPassthrough, receive_returnPass hp hr]

end Sys2Proof.Proofs
end

section
/-! PROOFS. READ SCREEN (O23): which order kinds name a row of the screen table, and what the Request Unit
answers for them (R137). -/

namespace Sys2Proof.Machine

/-! ### The rows of the screen table -/

theorem indexOf_eq_some {n : Nat} {b : Byte} {i : Fin n} : indexOf n b = some i ↔ b.toNat = i.val := by
  unfold indexOf
  split
  · simp [Fin.ext_iff]
  · have := i.isLt
    simp only [reduceCtorEq, false_iff]
    omega

theorem indexOf_eq_none {n : Nat} {b : Byte} : indexOf n b = none ↔ n ≤ b.toNat := by
  simp [indexOf]

/-- Order kind 0 wraps to 255, which is the row of no kind. -/
theorem toNat_sub_one_byte (b : Byte) : (b - 1).toNat = if b.toNat = 0 then 255 else b.toNat - 1 := by
  split <;> bv_omega

theorem screenRow_eq_some {kind : Byte} {i : Fin 7} : screenRow kind = some i ↔ kind.toNat = i.val + 1 := by
  rw [screenRow, indexOf_eq_some, toNat_sub_one_byte]
  split <;> omega

theorem screenRow_eq_none {kind : Byte} : screenRow kind = none ↔ kind.toNat < 1 ∨ 7 < kind.toNat := by
  rw [screenRow, indexOf_eq_none, toNat_sub_one_byte]
  split <;> omega

/-! ### The answer and the row's meaning -/

/-- The data octets of the reply that carries a row's four verdicts (11, section 11.5). -/
def verdictData (row : Vector Verdict 4) : Vector Byte 10 :=
  #v[BitVec.ofNat 8 (row.get 0).code, BitVec.ofNat 8 (row.get 1).code, BitVec.ofNat 8 (row.get 2).code,
     BitVec.ofNat 8 (row.get 3).code, 0, 0, 0, 0, 0, 0]

theorem reqReadScreen_of_row {kind : Byte} {i : Fin 7} (s : State) (hk : screenRow kind = some i) :
    reqReadScreen kind s = answerDone (verdictData (s.setup.screen.get i)) s := by
  rw [reqReadScreen, hk]
  rfl

theorem reqReadScreen_of_no_row {kind : Byte} (s : State) (hk : screenRow kind = none) :
    reqReadScreen kind s = refuse .range s := by
  rw [reqReadScreen, hk]

/-- Request code 15 is READ SCREEN, with the order kind in parameter octet 2. -/
theorem answerManage_readScreen (tag kind : Byte) (s : State) :
    answerManage (payload13 15 tag kind) s = reqReadScreen kind s := rfl

theorem exec_readScreen (tag kind : Byte) (s : State) :
    exec (.readScreen tag kind) s = request (payload13 15 tag kind) s := rfl

/-- READ SCREEN's request code is one a block owns, so the REPLY echoes it (R164). -/
theorem readScreen_code_known (tag kind : Byte) :
    1 ≤ (payload13 15 tag kind)[0].toNat ∧ (payload13 15 tag kind)[0].toNat ≤ 24 := by
  have code : (payload13 15 tag kind)[0].toNat = 15 := rfl
  omega

theorem exec_readScreen_of_row {s : State} (ha : s.acting) (hr : s.contactRight) (tag : Byte) {kind : Byte}
    {i : Fin 7} (hk : screenRow kind = some i) :
    exec (.readScreen tag kind) s = .next (s.replies 15 tag 0 (verdictData (s.setup.screen.get i))) := by
  have answered := (answerManage_readScreen tag kind s).trans (reqReadScreen_of_row s hk)
  obtain ⟨low, high⟩ := readScreen_code_known tag kind
  exact request_done ha hr _ _ low high answered rfl rfl

theorem exec_readScreen_of_no_row {s : State} (ha : s.acting) (hr : s.contactRight) (tag : Byte) {kind : Byte}
    (hk : screenRow kind = none) :
    exec (.readScreen tag kind) s = .next (s.replies 15 tag 2 (Vector.replicate 10 0)) := by
  have refused := (answerManage_readScreen tag kind s).trans (reqReadScreen_of_no_row s hk)
  obtain ⟨low, high⟩ := readScreen_code_known tag kind
  exact request_refused ha hr _ .range low high refused

end Sys2Proof.Machine

namespace Sys2Proof.Proofs

open Sys2Proof.Machine

/-- Settles O23: an order kind 1 to 7 names a row of the screen table and is answered with it; any other names
none and is refused (R137). -/
theorem readScreenAnswers : Obligations.ReadScreenAnswers := by
  intro tag kind s ha hr
  exact ⟨fun i hk => exec_readScreen_of_row ha hr tag (screenRow_eq_some.2 hk),
    fun hk => exec_readScreen_of_no_row ha hr tag (screenRow_eq_none.2 hk)⟩

end Sys2Proof.Proofs
end

section
/-! PROOFS. READ PARAM (O21): which codes name an area parameter, where its value stands, and the octets that
carry it (R168; 10, section 10.3). -/

namespace Sys2Proof.Machine

/-! ### The codes and the values -/

theorem paramRange_eq_none {code : Nat} : paramRange code = none ↔ code < 1 ∨ 9 < code := by
  unfold paramRange
  split
  case h_10 => grind
  all_goals simp

theorem paramRange_of_listed {code : Nat} (low : 1 ≤ code) (high : code ≤ 9) :
    ∃ range, paramRange code = some range := by
  refine Option.ne_none_iff_exists'.1 fun unlisted => ?_
  have := paramRange_eq_none.1 unlisted
  omega

/-- The table of 10, section 10.3: each parameter's code, and its value as it stands. -/
def Params.table (p : Params) : List (Nat × Nat) :=
  [(1, p.staggerGap), (2, p.strikeLimit), (3, p.lampSettle), (4, p.runupLimit), (5, p.stopLimit),
   (6, p.dwellLimit), (7, p.motionWindow), (8, p.markLength), (9, p.markGap)]

theorem Params.table_eq_map_read (p : Params) :
    p.table = (List.range' 1 9).map fun code => (code, p.read code) := rfl

/-- An entry of the table is a code 1 to 9 with what `Params.read` finds under it. -/
theorem Params.mem_table {p : Params} {x : Nat × Nat} :
    x ∈ p.table ↔ (1 ≤ x.1 ∧ x.1 ≤ 9) ∧ p.read x.1 = x.2 := by
  obtain ⟨code, value⟩ := x
  simp only [table_eq_map_read, List.mem_map, List.mem_range'_1, Prod.mk.injEq]
  constructor
  · rintro ⟨c, listed, rfl, found⟩
    exact ⟨by omega, found⟩
  · rintro ⟨listed, found⟩
    exact ⟨code, by omega, rfl, found⟩

/-! ### The octets of a value -/

theorem hi16_ofNat (v : Nat) : hi16 (BitVec.ofNat 16 v) = BitVec.ofNat 8 (v / 256) := by
  apply BitVec.eq_of_toNat_eq
  simp only [hi16, BitVec.extractLsb'_toNat, BitVec.toNat_ofNat, Nat.shiftRight_eq_div_pow]
  omega

theorem lo16_ofNat (v : Nat) : lo16 (BitVec.ofNat 16 v) = BitVec.ofNat 8 v := by
  apply BitVec.eq_of_toNat_eq
  simp only [lo16, BitVec.extractLsb'_toNat, BitVec.toNat_ofNat, Nat.shiftRight_zero]
  omega

theorem paramView_eq (code : Byte) (v : Nat) :
    paramView code v = #v[code, BitVec.ofNat 8 (v / 256), BitVec.ofNat 8 v, 0, 0, 0, 0, 0, 0, 0] := by
  rw [paramView, hi16_ofNat, lo16_ofNat, data10]

/-! ### The answer and the row's meaning -/

theorem reqReadParam_of_listed {code : Byte} (s : State) (low : 1 ≤ code.toNat) (high : code.toNat ≤ 9) :
    reqReadParam code s = answerDone (paramView code (s.setup.params.read code.toNat)) s := by
  obtain ⟨range, listed⟩ := paramRange_of_listed low high
  rw [reqReadParam, listed]

theorem reqReadParam_of_unlisted {code : Byte} (s : State) (hc : code.toNat < 1 ∨ 9 < code.toNat) :
    reqReadParam code s = refuse .range s := by
  rw [reqReadParam, paramRange_eq_none.2 hc]

/-- Request code 23 is READ PARAM, with the parameter code in parameter octet 2. -/
theorem answerManage_readParam (tag code : Byte) (s : State) :
    answerManage (payload13 23 tag code) s = reqReadParam code s := rfl

theorem exec_readParam (tag code : Byte) (s : State) :
    exec (.readParam tag code) s = request (payload13 23 tag code) s := rfl

/-- READ PARAM's request code is one a block owns, so the REPLY echoes it (R164). -/
theorem readParam_code_known (tag code : Byte) :
    1 ≤ (payload13 23 tag code)[0].toNat ∧ (payload13 23 tag code)[0].toNat ≤ 24 := by
  have echoed : (payload13 23 tag code)[0].toNat = 23 := rfl
  omega

theorem exec_readParam_of_listed {s : State} (ha : s.acting) (hr : s.contactRight) (tag : Byte) {code : Byte}
    (low : 1 ≤ code.toNat) (high : code.toNat ≤ 9) :
    exec (.readParam tag code) s =
      .next (s.replies 23 tag 0 (paramView code (s.setup.params.read code.toNat))) := by
  have answered := (answerManage_readParam tag code s).trans (reqReadParam_of_listed s low high)
  obtain ⟨owned, owned_le⟩ := readParam_code_known tag code
  exact request_done ha hr _ _ owned owned_le answered rfl rfl

theorem exec_readParam_of_unlisted {s : State} (ha : s.acting) (hr : s.contactRight) (tag : Byte) {code : Byte}
    (hc : code.toNat < 1 ∨ 9 < code.toNat) :
    exec (.readParam tag code) s = .next (s.replies 23 tag 2 (Vector.replicate 10 0)) := by
  have refused := (answerManage_readParam tag code s).trans (reqReadParam_of_unlisted s hc)
  obtain ⟨owned, owned_le⟩ := readParam_code_known tag code
  exact request_refused ha hr _ .range owned owned_le refused

end Sys2Proof.Machine

namespace Sys2Proof.Proofs

open Sys2Proof.Machine

/-- Settles O21: a code 1 to 9 is answered with the value the table of 10.3 holds under it; any other names no
parameter and is refused (R168). -/
theorem readParamAnswers : Obligations.ReadParamAnswers := by
  intro tag code s ha hr
  refine ⟨fun x hx named => ?_, exec_readParam_of_unlisted ha hr tag⟩
  obtain ⟨⟨low, high⟩, found⟩ := Params.mem_table.1 hx
  rw [← named] at low high found
  rw [exec_readParam_of_listed ha hr tag low high, found, paramView_eq]

end Sys2Proof.Proofs
end

section
/-! PROOFS. Facts of lists and conditionals that core Lean has under no one name: the package's files import no library. -/

namespace Sys2Proof.Machine

theorem ite_of_iff {α : Sort _} {a b : Prop} [Decidable a] [Decidable b] {x y : α} (h : a ↔ b) :
    (if a then x else y) = if b then x else y :=
  ite_congr (propext h) (fun _ => rfl) fun _ => rfl

theorem getD_of_lt {α : Type _} {l : List α} {i : Nat} {d : α} (h : i < l.length) : l.getD i d = l[i] := by
  rw [List.getD_eq_getElem?_getD, List.getElem?_eq_getElem h]
  rfl

theorem getD_of_length_le {α : Type _} {l : List α} {i : Nat} {d : α} (h : l.length ≤ i) : l.getD i d = d := by
  rw [List.getD_eq_getElem?_getD, List.getElem?_eq_none h]
  rfl

theorem length_le_of_bounded {n : Nat} {l : List Nat} (nodup : l.Nodup) (bounded : ∀ x ∈ l, x < n) : l.length ≤ n := by
  induction n generalizing l with
  | zero =>
    cases l with
    | nil => exact Nat.le_refl _
    | cons a l => exact absurd (bounded a (List.mem_cons_self ..)) (Nat.not_lt_zero a)
  | succ n ih =>
    have below : (l.erase n).length ≤ n := ih (nodup.erase n) fun x hx => by
      obtain ⟨other, inside⟩ := nodup.mem_erase_iff.1 hx
      exact Nat.lt_of_le_of_ne (Nat.le_of_lt_succ (bounded x inside)) other
    rw [List.length_erase] at below
    split at below <;> omega

/-- A list with no position twice holds at most eight. -/
theorem length_le_of_nodup {l : List (Fin 8)} (nodup : l.Nodup) : l.length ≤ 8 := by
  have values : (l.map Fin.val).Nodup := List.pairwise_map.2 (nodup.imp fun other same => other (Fin.ext same))
  rw [← List.length_map (f := Fin.val)]
  refine length_le_of_bounded values fun x hx => ?_
  obtain ⟨p, _, rfl⟩ := List.mem_map.1 hx
  exact p.isLt

/-- Two ascending lists with the same members are one. -/
theorem eq_of_ascending {n : Nat} {l m : List (Fin n)} (hl : l.Pairwise (· < ·)) (hm : m.Pairwise (· < ·))
    (same : ∀ a, a ∈ l ↔ a ∈ m) : l = m := by
  refine List.Perm.eq_of_pairwise (le := (· < ·)) (fun a b _ _ below above => absurd above (Fin.lt_asymm below)) hl hm ?_
  have once : ∀ {k : List (Fin n)}, k.Pairwise (· < ·) → k.Nodup := fun h => h.imp Fin.ne_of_lt
  refine List.perm_iff_count.2 fun a => ?_
  rw [(once hl).count, (once hm).count]
  exact ite_of_iff (same a)

end Sys2Proof.Machine
end

section
/-! PROOFS. What every step keeps of the contact, the queues and the stack (O4, O5, O6). -/

namespace Sys2Proof.Machine

/-! ### The contact (R160): every command that changes its conditions judges it last -/

theorem receive_contactRight (l : Leg) (c : Cell) (s : State) : (receive l c s).contactRight := by
  unfold receive
  split <;> exact judged_contactRight _

theorem event_contactRight {s : State} (h : s.contactRight) (count : Env → Run → Run) (due : Env → Run → Bool)
    (f : Env → Run → Run) : (s.event count due f).contactRight := by
  unfold State.event
  split
  · exact judged_contactRight _
  · exact h

theorem silenceExpires_contactRight {s : State} (h : s.contactRight) : (silenceExpires s).contactRight := by
  unfold silenceExpires
  split
  · exact judged_contactRight _
  · exact h

theorem clockCycle_contactRight {s : State} (h : s.contactRight) : (clockCycle s).contactRight := by
  unfold clockCycle
  split
  · split
    · split
      · exact judged_contactRight _
      · exact h
    · exact h
  · exact h

/-- A row that is a cell or a request is `receive`; a row that names an event is `State.event`; the others judge the
contact themselves. -/
theorem exec_contactRight {i : Instr} {s t : State} (h : s.contactRight) (hx : exec i s = .next t) :
    t.contactRight := by
  cases i <;> obtain rfl := Host.Outcome.next.inj hx
  case silenceTimerExpiry => exact silenceExpires_contactRight h
  case resetAssert | resetRelease | powerOn | lossOfSupply => exact judged_contactRight _
  case missCountSilent | runupExpiry | stopExpiry | stallFlag | stallBreak | markRecognised | settleExpiry
    | strikeExpiry | staggerGapExpiry | strikeGrant | dwellExpiry | holdExpiry | switchExpiry | ruleFire =>
    exact event_contactRight h ..
  all_goals exact receive_contactRight ..

/-- A step is the command at the front of the queue, or one cycle of the clock. -/
theorem step_cases {s t : State} (h : step s = .next t) :
    (∃ i rest, s.pending = i :: rest ∧ exec i { s with pending := rest } = .next t)
      ∨ (s.pending = [] ∧ t = clockCycle s) := by
  unfold step at h
  split at h
  · exact .inl ⟨_, _, ‹_›, h⟩
  · exact .inr ⟨‹_›, (Host.Outcome.next.inj h).symm⟩

/-- What every step does to the run-time state. -/
theorem runMove_of_step {s t : State} (h : step s = .next t) : RunMove s.run t.run := by
  obtain ⟨u, hu, hm⟩ := step_moves s
  obtain rfl := Host.Outcome.next.inj (hu.symm.trans h)
  exact hm

/-! ### The queues (R132, R158) -/

theorem releaseSlot_frame (k : Fin 82) (rest : List (Fin 82)) (r : Run) :
    (releaseSlot k rest r).orders = r.orders ∧ (releaseSlot k rest r).notices = r.notices
      ∧ (releaseSlot k rest r).stack = rest := by
  have hfold : ∀ (a b : Run) (l : List (Fin 82)) (x : Run),
      (l.foldl (renotice a b) x).orders = x.orders ∧ (l.foldl (renotice a b) x).notices = x.notices
        ∧ (l.foldl (renotice a b) x).stack = x.stack := by
    intro a b l
    induction l with
    | nil => exact fun x => ⟨rfl, rfl, rfl⟩
    | cons k l ih =>
      intro x
      have step : (renotice a b x k).orders = x.orders ∧ (renotice a b x k).notices = x.notices
          ∧ (renotice a b x k).stack = x.stack := by
        unfold renotice
        split <;> exact ⟨rfl, rfl, rfl⟩
      obtain ⟨ho, hn, hs⟩ := ih (renotice a b x k)
      exact ⟨ho.trans step.1, hn.trans step.2.1, hs.trans step.2.2⟩
  exact hfold _ _ _ _

theorem RunMove.ordersSingle {r r' : Run} (h : RunMove r r') (h0 : OrdersSingle r.orders) :
    OrdersSingle r'.orders := by
  cases h with
  | acts e h => exact h.ordersSingle h0
  | noted | written | taken => exact h0
  | released k rest => rw [(releaseSlot_frame k rest r).1]; exact h0
  | reset => exact .nil

theorem RunMove.noticesBounded {r r' : Run} (h : RunMove r r') (h0 : NoticesBounded r) : NoticesBounded r' := by
  cases h with
  | acts e h => exact h.noticesBounded h0
  | noted | taken => exact h0
  | written n rest hn =>
    unfold NoticesBounded at h0 ⊢
    rw [hn, List.length_cons] at h0
    exact Nat.le_trans (Nat.le_succ _) h0
  | released k rest => unfold NoticesBounded; rw [(releaseSlot_frame k rest r).2.1]; exact h0
  | reset => exact Nat.zero_le _

/-! ### The stack (R155, R156) -/

/-- The severity of a slot is read of the rules the slots hold alone. -/
theorem severityOf_congr {r r' : Run} (h : ∀ j, (r'.slots.get j).rule = (r.slots.get j).rule) (k : Fin 82) :
    severityOf r' k = severityOf r k := by
  unfold severityOf
  rw [h k]

theorem ranksAbove_congr {r r' : Run} (h : ∀ j, (r'.slots.get j).rule = (r.slots.get j).rule) (a b : Fin 82) :
    ranksAbove r' a b = ranksAbove r a b := by
  unfold ranksAbove
  rw [severityOf_congr h, severityOf_congr h]

theorem ranksAbove_trans {r : Run} {a b c : Fin 82} (hab : ranksAbove r a b = true) (hbc : ranksAbove r b c = true) :
    ranksAbove r a c = true := by
  unfold ranksAbove at *
  cases ha : severityOf r a <;> cases hb : severityOf r b <;> cases hc : severityOf r c <;>
    simp only [ha, hb, hc, decide_eq_true_eq] at * <;> first | trivial | omega

theorem ranksAbove_asymm {r : Run} {a b : Fin 82} (hab : ranksAbove r a b = true) : ranksAbove r b a = false := by
  unfold ranksAbove at *
  cases ha : severityOf r a <;> cases hb : severityOf r b <;>
    simp only [ha, hb, decide_eq_true_eq, decide_eq_false_iff_not] at * <;> first | trivial | omega

/-- What `highest` answers meets the condition. -/
theorem highest_meets {r : Run} {f : Fin 82 → Bool} {k : Fin 82} (h : highest r f = some k) : f k = true := by
  unfold highest at h
  split at h
  · obtain rfl := Option.some.inj h
    have := List.find?_some ‹_›
    exact (Bool.and_eq_true _ _ ▸ this).1
  · exact List.find?_some h

/-- R155: a slot to take is pending and outranks every slot of a sound stack. -/
theorem slotToTake_outranks {r : Run} {k : Fin 82} (hs : r.stack.Pairwise (fun a b => ranksAbove r a b = true))
    (h : slotToTake r = some k) :
    (r.slots.get k).pending = true ∧ ∀ a ∈ r.stack, ranksAbove r k a = true := by
  have meets := highest_meets h
  simp only [Bool.and_eq_true, Bool.not_eq_true'] at meets
  obtain ⟨pending, unmasked⟩ := meets
  refine ⟨pending, fun a ha => ?_⟩
  unfold masked at unmasked
  cases hst : r.stack with
  | nil => simp [hst] at ha
  | cons t rest =>
    simp only [hst, Bool.not_eq_false'] at unmasked
    rw [hst, List.pairwise_cons] at hs
    rcases List.mem_cons.1 (hst ▸ ha) with rfl | ha
    · exact unmasked
    · exact ranksAbove_trans unmasked (hs.1 a ha)

theorem takeSlot_slot (k j : Fin 82) (r : Run) :
    (takeSlot k r).slots.get j = if k = j then
      { r.slots.get j with pending := false, noticed := false, repeated := false, underService := true }
      else r.slots.get j := by
  unfold takeSlot
  dsimp only
  rw [Run.modSlot_get]
  split
  · rename_i e; rw [e]
  · rfl

theorem takeSlot_rule (k j : Fin 82) (r : Run) : ((takeSlot k r).slots.get j).rule = (r.slots.get j).rule := by
  rw [takeSlot_slot]; split <;> rfl

theorem takeSlot_stackSound {r : Run} {k : Fin 82} (h : slotToTake r = some k) (h0 : StackSound r) :
    StackSound (takeSlot k r) := by
  obtain ⟨nodup, service, rising, captured⟩ := h0
  obtain ⟨pending, outranks⟩ := slotToTake_outranks rising h
  have off_stack : k ∉ r.stack := fun hk => by
    have above := outranks k hk
    rw [ranksAbove_asymm above] at above
    exact absurd above (by decide)
  refine ⟨List.nodup_cons.2 ⟨off_stack, nodup⟩, fun j => ?_, List.pairwise_cons.2 ⟨fun a ha => ?_, ?_⟩, fun j hj hs => ?_⟩
  · rw [takeSlot_slot]
    split
    · rename_i e; subst e; exact (decide_eq_true (List.mem_cons_self ..)).symm
    · rename_i ne
      rw [service j]
      exact decide_eq_decide.2 ⟨List.mem_cons_of_mem _, fun hm => (List.mem_cons.1 hm).resolve_left (Ne.symm ne)⟩
  · rw [ranksAbove_congr (takeSlot_rule k · r)]; exact outranks a ha
  · exact rising.imp fun hab => by rwa [ranksAbove_congr (takeSlot_rule k · r)]
  · rw [takeSlot_rule]
    rw [takeSlot_slot] at hs
    split at hs
    · rename_i e; subst e; exact captured k hj (by simp [pending])
    · exact captured j hj hs

/-- R156: a release clears the under-service flag of the slot, and elsewhere may clear noticed flags alone. -/
theorem releaseSlot_slot (k j : Fin 82) (rest : List (Fin 82)) (r : Run) :
    ((releaseSlot k rest r).slots.get j).pending = (r.slots.get j).pending
      ∧ ((releaseSlot k rest r).slots.get j).rule = (r.slots.get j).rule
      ∧ ((releaseSlot k rest r).slots.get j).underService = (if k = j then false else (r.slots.get j).underService) := by
  have renoticed : ∀ (a b : Run) (l : List (Fin 82)) (x : Run),
      ((l.foldl (renotice a b) x).slots.get j).pending = (x.slots.get j).pending
        ∧ ((l.foldl (renotice a b) x).slots.get j).rule = (x.slots.get j).rule
        ∧ ((l.foldl (renotice a b) x).slots.get j).underService = (x.slots.get j).underService := by
    intro a b l
    induction l with
    | nil => exact fun x => ⟨rfl, rfl, rfl⟩
    | cons i l ih =>
      intro x
      have one : ((renotice a b x i).slots.get j).pending = (x.slots.get j).pending
          ∧ ((renotice a b x i).slots.get j).rule = (x.slots.get j).rule
          ∧ ((renotice a b x i).slots.get j).underService = (x.slots.get j).underService := by
        unfold renotice
        split
        · rw [Run.modSlot_get]
          split
          · rename_i e; subst e; exact ⟨rfl, rfl, rfl⟩
          · exact ⟨rfl, rfl, rfl⟩
        · exact ⟨rfl, rfl, rfl⟩
      obtain ⟨hp, hr, hu⟩ := ih (renotice a b x i)
      exact ⟨hp.trans one.1, hr.trans one.2.1, hu.trans one.2.2⟩
  obtain ⟨hp, hr, hu⟩ := renoticed r { r.modSlot k (fun x => { x with underService := false }) with stack := rest }
    allSlots { r.modSlot k (fun x => { x with underService := false }) with stack := rest }
  unfold releaseSlot
  dsimp only
  rw [hp, hr, hu, Run.modSlot_get]
  split
  · rename_i e; subst e; exact ⟨rfl, rfl, rfl⟩
  · exact ⟨rfl, rfl, rfl⟩

theorem releaseSlot_stackSound {r : Run} {k : Fin 82} {rest : List (Fin 82)} (h : r.stack = k :: rest)
    (h0 : StackSound r) : StackSound (releaseSlot k rest r) := by
  obtain ⟨nodup, service, rising, captured⟩ := h0
  have rules : ∀ j, ((releaseSlot k rest r).slots.get j).rule = (r.slots.get j).rule :=
    fun j => (releaseSlot_slot k j rest r).2.1
  rw [h] at nodup rising
  obtain ⟨off_rest, nodup⟩ := List.nodup_cons.1 nodup
  obtain ⟨_, _, stack⟩ := releaseSlot_frame k rest r
  refine ⟨by rw [stack]; exact nodup, fun j => ?_, ?_, fun j hj hs => ?_⟩
  · rw [(releaseSlot_slot k j rest r).2.2, stack]
    split
    · rename_i e; subst e; exact (decide_eq_false off_rest).symm
    · rename_i ne
      rw [service j, h]
      exact decide_eq_decide.2 ⟨fun hm => (List.mem_cons.1 hm).resolve_left (Ne.symm ne), List.mem_cons_of_mem _⟩
  · rw [stack]
    exact (List.pairwise_cons.1 rising).2.imp fun hab => by rwa [ranksAbove_congr rules]
  · obtain ⟨hp, hr, hu⟩ := releaseSlot_slot k j rest r
    rw [hr]
    refine captured j hj ?_
    rw [hp, hu] at hs
    split at hs
    · rw [Bool.or_false] at hs; rw [hs]; rfl
    · exact hs

theorem noteSlot_slot (k j : Fin 82) (r : Run) :
    ((noteSlot k r).slots.get j).pending = (r.slots.get j).pending
      ∧ ((noteSlot k r).slots.get j).rule = (r.slots.get j).rule
      ∧ ((noteSlot k r).slots.get j).underService = (r.slots.get j).underService := by
  unfold noteSlot
  rw [Run.modSlot_get]
  split
  · rename_i e; subst e; exact ⟨rfl, rfl, rfl⟩
  · exact ⟨rfl, rfl, rfl⟩

theorem noteSlot_stackSound (k : Fin 82) {r : Run} (h0 : StackSound r) : StackSound (noteSlot k r) := by
  obtain ⟨nodup, service, rising, captured⟩ := h0
  have slot := fun j => noteSlot_slot k j r
  refine ⟨nodup, fun j => (slot j).2.2.trans (service j), ?_, fun j hj hs => ?_⟩
  · exact rising.imp fun hab => by rwa [ranksAbove_congr fun j => (slot j).2.1]
  · obtain ⟨hp, hr, hu⟩ := slot j
    rw [hp, hu] at hs
    rw [hr]; exact captured j hj hs

theorem warmReset_stackSound (r : Run) : StackSound r.warmReset := by
  have slot : ∀ j, r.warmReset.slots.get j = Slot.cleared := fun j => Vector.getElem_replicate j.isLt
  refine ⟨.nil, fun j => ?_, .nil, fun j _ hs => ?_⟩
  · rw [slot]; rfl
  · rw [slot] at hs; exact absurd hs (by decide)

theorem RunMove.stackSound {r r' : Run} (h : RunMove r r') (h0 : StackSound r) : StackSound r' := by
  cases h with
  | acts e h => exact h.stackSound h0
  | noted k => exact noteSlot_stackSound k h0
  | written n rest hn => exact h0
  | taken k h => exact takeSlot_stackSound h h0
  | released k rest h => exact releaseSlot_stackSound h h0
  | reset => exact warmReset_stackSound r

end Sys2Proof.Machine

namespace Sys2Proof.Proofs

open Sys2Proof.Machine

/-- Settles O4: a command either judges the contact last or leaves its conditions as they are. -/
theorem contactKept : Obligations.ContactKept := by
  intro s t h hs
  obtain ⟨i, rest, _, hx⟩ | ⟨_, rfl⟩ := step_cases hs
  · exact exec_contactRight (s := { s with pending := rest }) h hx
  · exact clockCycle_contactRight h

/-- Settles O5: each way a command changes the run-time state keeps both queues. -/
theorem queuesKept : Obligations.QueuesKept := by
  intro s t hs
  have hm := runMove_of_step hs
  exact ⟨hm.ordersSingle, hm.noticesBounded⟩

/-- Settles O6: TAKE puts a slot that outranks the stack on its top, RELEASE takes the top off, and nothing else
changes what is under service or the severity it was taken with. -/
theorem stackKept : Obligations.StackKept := by
  intro s t h0 hs
  exact (runMove_of_step hs).stackSound h0

end Sys2Proof.Proofs
end

section
/-! PROOFS. What a command leaves of the set-up, the stack and the own station, said once for every cell and every
request (O1, O7, O8, O10, O11, O20). -/

namespace Sys2Proof.Machine

/-! ### A command that is no request -/

/-- The set-up, the commands that wait, the own station, the straps and what is under service are as they were. -/
structure Undisturbed (s t : State) : Prop where
  setup : t.setup = s.setup
  pending : t.pending = s.pending
  own : t.port.own = s.port.own
  straps : t.port.straps = s.port.straps
  stack : t.run.stack = s.run.stack
  service : ∀ k : Fin 82, (t.run.slots.get k).underService = (s.run.slots.get k).underService

theorem Undisturbed.refl (s : State) : Undisturbed s s := ⟨rfl, rfl, rfl, rfl, rfl, fun _ => rfl⟩

theorem Undisturbed.trans {s t u : State} (h : Undisturbed s t) (g : Undisturbed t u) : Undisturbed s u :=
  ⟨g.setup.trans h.setup, g.pending.trans h.pending, g.own.trans h.own, g.straps.trans h.straps,
    g.stack.trans h.stack, fun k => (g.service k).trans (h.service k)⟩

theorem Undisturbed.ladderKept {s t : State} (h : Undisturbed s t) : LadderKept s t := ⟨h.stack, h.service⟩

/-- What the blocks do changes neither the stack nor what is under service. -/
theorem undisturbed_of_acts {s : State} {e : Env} {r : Run} (h : Acts e true true s.run r) :
    Undisturbed s { s with run := r } :=
  ⟨rfl, rfl, rfl, rfl, h.stack, h.underService⟩

theorem act_undisturbed {s : State} {f : Env → Run → Run} (h : Acts s.env true true s.run (f s.env s.run)) :
    Undisturbed s (s.act f) :=
  undisturbed_of_acts (drain_acts rfl h)

theorem judged_undisturbed (s : State) : Undisturbed s s.judged := ⟨rfl, rfl, rfl, rfl, rfl, fun _ => rfl⟩

theorem leaves_undisturbed (l : Leg) (o : Option Cell) (s : State) :
    Undisturbed s { s with port := s.port.leaves l o } := by
  cases l <;> exact ⟨rfl, rfl, rfl, rfl, rfl, fun _ => rfl⟩

theorem takeHead_undisturbed (m : Payload) (s : State) : Undisturbed s (takeHead m s) := by
  unfold takeHead
  dsimp only
  split
  · have h : Acts ({ s with port := s.port.takeHead m[0] } : State).env true true s.run
        (regain ({ s with port := s.port.takeHead m[0] } : State).env s.run) := regain_acts rfl .refl
    exact ⟨rfl, rfl, rfl, rfl, h.stack, h.underService⟩
  · exact ⟨rfl, rfl, rfl, rfl, rfl, fun _ => rfl⟩

theorem offerOrder_undisturbed (v : Cell) (s : State) : Undisturbed s (offerOrder v s).state := by
  unfold offerOrder
  split
  · exact act_undisturbed (insertOrder_acts _ .refl)
  · exact .refl s

theorem takeDeskOrder_undisturbed (c : Cell) (d : DeskOrder) (s : State) :
    Undisturbed s (takeDeskOrder c d s).state := by
  unfold takeDeskOrder
  split
  · exact (act_undisturbed (Acts.refl.notice _)).trans (offerOrder_undisturbed ..)
  · exact (act_undisturbed (strikeRequest_acts _ _ .refl)).trans (offerOrder_undisturbed ..)
  · exact act_undisturbed (passOrder_acts _ .refl)

theorem takeState_undisturbed (c : Cell) (s : State) : Undisturbed s (takeState c s) := by
  unfold takeState
  split
  · rename_i p _
    split
    · exact .refl s
    · exact Undisturbed.trans (t := { s with port := { s.port with
          reportedPositions := s.port.reportedPositions.set p true } })
        ⟨rfl, rfl, rfl, rfl, rfl, fun _ => rfl⟩ (act_undisturbed (takeReport_acts rfl _ _ _ .refl))
  · exact .refl s

theorem takeMuxCell_undisturbed (c : Cell) (s : State) : Undisturbed s (takeMuxCell c s) := by
  unfold takeMuxCell
  split
  · rename_i k i _ _
    split
    · exact .refl s
    · exact Undisturbed.trans (t := { s with port := { s.port with
          reportedChains := s.port.reportedChains.set k true } })
        ⟨rfl, rfl, rfl, rfl, rfl, fun _ => rfl⟩ (act_undisturbed (takeMux_acts rfl _ _ .refl))
  · exact .refl s

theorem offerNotice_undisturbed (v : Cell) (s : State) : Undisturbed s (offerNotice v s).state := by
  unfold offerNotice
  split
  · rename_i k _
    exact ⟨rfl, rfl, rfl, rfl, rfl, fun j => (noteSlot_slot k j s.run).2.2⟩
  · split
    · exact ⟨rfl, rfl, rfl, rfl, rfl, fun _ => rfl⟩
    · exact .refl s

theorem takeTail_undisturbed (s : State) : Undisturbed s (takeTail s) :=
  (act_undisturbed (sweepEnd_acts s.port.reportedPositions .refl)).trans ⟨rfl, rfl, rfl, rfl, rfl, fun _ => rfl⟩

/-- R1 to R15: a cell leaves all that undisturbed, unless it is a request to a part that acts (R6). -/
theorem passage_cases (l : Leg) (c : Cell) (s : State) :
    Undisturbed s (passage l c s).state
      ∨ s.port.monitor = .locked ∧ c.valid = true ∧ l = .outbound ∧ c.kind? = some .manage
        ∧ stationOf c.station = some s.port.own ∧ (passage l c s).state = (answerManage c.payload s).state := by
  unfold passage
  split
  · exact .inl (.refl s)
  · rename_i taken
    simp only [Bool.or_eq_true, Bool.not_eq_true', not_or, Bool.not_eq_false, Bool.not_eq_true] at taken
    split
    · rename_i k hk
      unfold takeCell
      split
      · rename_i locked
        split
        · cases k
          case manage =>
            unfold takeOutbound takeManage
            dsimp only
            split
            · rename_i own
              exact .inr ⟨locked, taken.2, rfl, hk, own, rfl⟩
            · exact .inl (.refl s)
          case head => exact .inl (takeHead_undisturbed ..)
          case order =>
            unfold takeOutbound takeOrder
            dsimp only
            split
            · exact .inl (takeDeskOrder_undisturbed ..)
            · exact .inl (.refl s)
          case void => exact .inl (offerOrder_undisturbed ..)
          all_goals exact .inl (.refl s)
        · cases k
          case state => exact .inl (takeState_undisturbed ..)
          case mux => exact .inl (takeMuxCell_undisturbed ..)
          case void => exact .inl (offerNotice_undisturbed ..)
          case tail => exact .inl (takeTail_undisturbed s)
          all_goals exact .inl (.refl s)
      · unfold takeUnlocked
        split
        · exact .inl (takeHead_undisturbed ..)
        · exact .inl (.refl s)
    · exact .inl (.refl s)

theorem receive_cases (l : Leg) (c : Cell) (s : State) :
    Undisturbed s (receive l c s)
      ∨ s.port.monitor = .locked ∧ c.valid = true ∧ l = .outbound ∧ c.kind? = some .manage
        ∧ stationOf c.station = some s.port.own ∧ Undisturbed (answerManage c.payload s).state (receive l c s) := by
  unfold receive
  dsimp only
  split
  · rcases passage_cases l c s with same | ⟨locked, valid, leg, kind, own, answered⟩
    · exact .inl (same.trans ((leaves_undisturbed l _ _).trans (judged_undisturbed _)))
    · refine .inr ⟨locked, valid, leg, kind, own, ?_⟩
      rw [← answered]
      exact (leaves_undisturbed l _ _).trans (judged_undisturbed _)
  · exact .inl ((leaves_undisturbed l _ s).trans (judged_undisturbed _))

theorem request_cases (m : Payload) (s : State) :
    ∃ t, request m s = .next t ∧ (Undisturbed s t ∨ Undisturbed (answerManage m s).state t) :=
  ⟨_, rfl, (receive_cases .outbound (Cell.make .manage (s.port.own.setWidth 8) m) s).imp_right
    fun ⟨_, _, _, _, _, h⟩ => h⟩

theorem event_undisturbed {s : State} {count f : Env → Run → Run} (due : Env → Run → Bool)
    (h : Acts s.env true true s.run (f s.env (count s.env s.run))) : Undisturbed s (s.event count due f) := by
  unfold State.event
  split
  · exact (undisturbed_of_acts (drain_acts rfl h)).trans (judged_undisturbed _)
  · exact .refl s

theorem loseLoop_undisturbed (s : State) : Undisturbed s (loseLoop s) := by
  have h : Acts s.env true true s.run (raiseChain s.env slotLoop s.run) := raiseChain_acts _ .refl
  exact ⟨rfl, rfl, rfl, rfl, h.stack, h.underService⟩

theorem silenceExpires_undisturbed (s : State) : Undisturbed s (silenceExpires s) := by
  unfold silenceExpires
  split
  · exact loseLoop_undisturbed s
  · exact .refl s

theorem clockCycle_undisturbed (s : State) : Undisturbed s (clockCycle s) := by
  unfold clockCycle
  split
  · split
    · split
      · exact loseLoop_undisturbed s
      · exact ⟨rfl, rfl, rfl, rfl, rfl, fun _ => rfl⟩
    · exact .refl s
  · exact .refl s

/-! ### A request -/

/-- The ways a request changes the set-up of a part with this own station, each with what its checks have found. -/
inductive SetupMove (own : Station) (su : Setup) : Setup → Prop
  | same : SetupMove own su su
  /-- R22. -/
  | position (p : Fin 8) (new : Option PosDef) (free : new.any (definePositionConflict own su p) = false) :
      SetupMove own su { su with positions := su.positions.set p new }
  /-- R123. -/
  | chain (c : Fin 4) (new : Option ChainDef) (free : new.any (defineChainConflict own su c) = false) :
      SetupMove own su { su with chains := su.chains.set c new }
  /-- R124. -/
  | mode (c : Fin 4) (new : ChainMode) (a b d f : Byte) (read : readMode a b d f = some new) :
      SetupMove own su { su with modes := su.modes.set c new }
  /-- R67, R69. -/
  | page (g : Fin 32) (page : Vector (Option Cue) 8) : SetupMove own su { su with pages := su.pages.set g page }
  /-- R71. -/
  | slot (p : Fin 8) (k : Fin 4) (g : Option (Fin 32)) (free : g.any (pageElsewhere su p k) = false) :
      SetupMove own su (setSlot su p k g)
  /-- R73. -/
  | lastPicture (p : Fin 8) (v : Option Int) :
      SetupMove own su { su with reels := su.reels.set p { su.reels.get p with lastPicture := v } }
  /-- R136. -/
  | screen (i : Fin 7) (row : Vector Verdict 4) : SetupMove own su { su with screen := su.screen.set i row }
  /-- R147. -/
  | rule (i : Fin 16) (x : Rule) (octets : Vector Byte 5) (read : readRuleRecord octets = some x) :
      SetupMove own su { su with rules := su.rules.set i x }
  /-- R152. -/
  | enables (en : Vector Bool 14) : SetupMove own su { su with enables := en }
  /-- R166. -/
  | params (code v low high : Nat) (range : paramRange code = some (low, high)) (above : low ≤ v) (below : v ≤ high) :
      SetupMove own su { su with params := su.params.write code v }

/-- Everything but the set-up is undisturbed, and the set-up is written as a request may. -/
def Written (s t : State) : Prop :=
  ∃ su, SetupMove s.port.own s.setup su ∧ Undisturbed { s with setup := su } t

theorem Written.refl (s : State) : Written s s := ⟨s.setup, .same, .refl s⟩

theorem Written.of_eq {s t : State} (h : t = s) : Written s t := h ▸ .refl s

/-- A write of the set-up, with what the blocks then do. -/
theorem Written.of_act {s : State} {su : Setup} {f : Env → Run → Run} (move : SetupMove s.port.own s.setup su)
    (h : Acts ({ s with setup := su } : State).env true true s.run
      (f ({ s with setup := su } : State).env s.run)) :
    Written s (({ s with setup := su } : State).act f) :=
  ⟨su, move, act_undisturbed h⟩

theorem reqDefinePosition_written (a b c d : Byte) (s : State) : Written s (reqDefinePosition a b c d s).state := by
  unfold reqDefinePosition
  split
  · split
    · exact .refl s
    · split
      · exact .refl s
      · rename_i free
        exact .of_act (.position _ _ (by simpa using free)) (redefinePosition_acts _ _ _ .refl)
  · exact .refl s

theorem reqDefineChain_written (a b c d f : Byte) (s : State) : Written s (reqDefineChain a b c d f s).state := by
  unfold reqDefineChain
  split
  · split
    · exact .refl s
    · split
      · exact .refl s
      · rename_i free
        exact .of_act (.chain _ _ (by simpa using free)) (redefineChain_acts _ _ _ .refl)
  · exact .refl s

theorem reqSetChainMode_written (a b c d f : Byte) (s : State) : Written s (reqSetChainMode a b c d f s).state := by
  unfold reqSetChainMode
  split
  · rename_i read
    exact .of_act (.mode _ _ _ _ _ _ read) (changeMode_acts _ _ _ .refl)
  · exact .refl s

theorem reqLoadCue_written (a : Byte) (x : Vector Byte 9) (s : State) : Written s (reqLoadCue a x s).state := by
  unfold reqLoadCue writeCue
  dsimp only
  split
  · exact .refl s
  · split
    · exact .refl s
    · exact .of_act (.page _ _) (cursorRewritten_acts _ _ .refl)
    · exact .of_act (.page _ _) (cursorRewritten_acts _ _ .refl)

theorem reqClearPage_written (a : Byte) (s : State) : Written s (reqClearPage a s).state := by
  unfold reqClearPage
  split
  · exact .refl s
  · split
    · exact .refl s
    · exact .of_act (.page _ _) (cursorRewritten_acts _ _ .refl)

theorem reqMapPage_written (a b c : Byte) (s : State) : Written s (reqMapPage a b c s).state := by
  unfold reqMapPage
  split
  · split
    · exact .refl s
    · split
      · exact .refl s
      · split
        · exact .refl s
        · rename_i free
          exact .of_act (.slot _ _ _ (by simpa using free)) (remapped_acts _ .refl)
  · exact .refl s

theorem reqSetReel_written (a b : Byte) (v : Int) (s : State) : Written s (reqSetReel a b v s).state := by
  unfold reqSetReel
  split
  · split
    · exact .refl s
    · exact .of_act (f := fun e r => evaluateRunout e false _ r) (.lastPicture _ _)
        (evaluateRunout_acts _ _ .refl)
  · exact .refl s

theorem reqSetPosition_undisturbed (a : Byte) (v : Int) (s : State) :
    Undisturbed s (reqSetPosition a v s).state := by
  unfold reqSetPosition
  split
  · exact .refl s
  · split
    · exact .refl s
    · rename_i refused
      split
      · exact .refl s
      · exact act_undisturbed (placePosition_acts _ _ (by simp_all) .refl)

theorem reqRestartCues_undisturbed (a : Byte) (s : State) : Undisturbed s (reqRestartCues a s).state := by
  unfold reqRestartCues
  split
  · exact .refl s
  · split
    · exact .refl s
    · exact act_undisturbed (remapped_acts _ .refl)

theorem reqSetScreen_written (a b c d f : Byte) (s : State) : Written s (reqSetScreen a b c d f s).state := by
  unfold reqSetScreen
  split
  · exact ⟨_, .screen _ _, .refl _⟩
  · exact .refl s

theorem reqSetRule_written (a : Byte) (x : Vector Byte 5) (s : State) : Written s (reqSetRule a x s).state := by
  unfold reqSetRule
  split
  · rename_i read
    exact ⟨_, .rule _ _ _ read, ⟨rfl, rfl, rfl, rfl, rfl, fun _ => rfl⟩⟩
  · exact .refl s

theorem reqSetAlarmEnables_written (a : Byte) (m : BitVec 16) (s : State) :
    Written s (reqSetAlarmEnables a m s).state := by
  unfold reqSetAlarmEnables
  split
  · exact .refl s
  · exact ⟨_, .enables _, .refl _⟩

theorem reqSetParam_written (a : Byte) (v : Nat) (s : State) : Written s (reqSetParam a v s).state := by
  unfold reqSetParam
  split
  · exact .refl s
  · rename_i low high range
    split
    · exact .refl s
    · rename_i inside
      exact ⟨_, .params _ _ _ _ range (by omega) (by omega), .refl _⟩

/-- R163: what a request comes to: it writes the set-up as its checks allow, or it takes or releases an alarm, or it
restarts the part (R19). -/
theorem carryOut_cases (q : Request) (s : State) :
    Written s (carryOut q s).state
      ∨ (q = .takeAlarm ∨ q = .releaseAlarm) ∧ (∃ r, (carryOut q s).state = { s with run := r })
      ∨ q = .resetPart ∧ (carryOut q s).state = warmReset s := by
  cases q
  case definePosition => exact .inl (reqDefinePosition_written ..)
  case readPosition => exact .inl (.of_eq (reqReadPosition_run ..))
  case defineChain => exact .inl (reqDefineChain_written ..)
  case setChainMode => exact .inl (reqSetChainMode_written ..)
  case readChain => exact .inl (.of_eq (reqReadChain_run ..))
  case loadCue => exact .inl (reqLoadCue_written ..)
  case readCue => exact .inl (.of_eq (reqReadCue_run ..))
  case clearPage => exact .inl (reqClearPage_written ..)
  case mapPage => exact .inl (reqMapPage_written ..)
  case setReel => exact .inl (reqSetReel_written ..)
  case readReel => exact .inl (.of_eq (reqReadReel_run ..))
  case setPosition => exact .inl ⟨s.setup, .same, reqSetPosition_undisturbed ..⟩
  case restartCues => exact .inl ⟨s.setup, .same, reqRestartCues_undisturbed ..⟩
  case setScreen => exact .inl (reqSetScreen_written ..)
  case readScreen => exact .inl (.of_eq (reqReadScreen_run ..))
  case setRule => exact .inl (reqSetRule_written ..)
  case readRule => exact .inl (.of_eq (reqReadRule_run ..))
  case takeAlarm =>
    refine .inr (.inl ⟨.inl rfl, ?_⟩)
    unfold carryOut reqTakeAlarm
    dsimp only
    split <;> exact ⟨_, rfl⟩
  case releaseAlarm =>
    refine .inr (.inl ⟨.inr rfl, ?_⟩)
    unfold carryOut reqReleaseAlarm
    dsimp only
    split <;> exact ⟨_, rfl⟩
  case setAlarmEnables => exact .inl (reqSetAlarmEnables_written ..)
  case readAlarms => exact .inl (.of_eq (reqReadAlarms_run ..))
  case setParam => exact .inl (reqSetParam_written ..)
  case readParam => exact .inl (.of_eq (reqReadParam_run ..))
  case resetPart => exact .inr (.inr ⟨rfl, rfl⟩)

/-- What every request leaves of the set-up, the queue of commands and the own station. -/
theorem answerManage_setup (m : Payload) (s : State) :
    SetupMove s.port.own s.setup (answerManage m s).state.setup
      ∧ (answerManage m s).state.pending = s.pending
      ∧ (answerManage m s).state.port.own = s.port.own
      ∧ (answerManage m s).state.port.straps = s.port.straps := by
  unfold answerManage
  split
  · rename_i q _
    rcases carryOut_cases q s with ⟨su, move, kept⟩ | ⟨_, r, same⟩ | ⟨_, same⟩
    · exact ⟨by rw [kept.setup]; exact move, kept.pending, kept.own, kept.straps⟩
    · rw [same]; exact ⟨.same, rfl, rfl, rfl⟩
    · rw [same]; exact ⟨.same, rfl, rfl, rfl⟩
  · exact ⟨.same, rfl, rfl, rfl⟩

/-! ### Every command -/

/-- R18, R171: what a full reset leaves. -/
theorem judged_fullReset_setup (w : BitVec 6) (s : State) :
    (fullReset w s).judged.setup = Setup.initial ∧ (fullReset w s).judged.pending = s.pending := ⟨rfl, rfl⟩

/-- What a command that is no reset leaves of the set-up, the queue of commands and the own station. -/
structure Held (s t : State) : Prop where
  pending : t.pending = s.pending
  setup : SetupMove s.port.own s.setup t.setup
  own : t.port.own = s.port.own
  straps : t.port.straps = s.port.straps

theorem Undisturbed.held {s t : State} (h : Undisturbed s t) : Held s t :=
  ⟨h.pending, by rw [h.setup]; exact .same, h.own, h.straps⟩

theorem receive_held (l : Leg) (c : Cell) (s : State) : Held s (receive l c s) := by
  rcases receive_cases l c s with h | ⟨_, _, _, _, _, h⟩
  · exact h.held
  · obtain ⟨move, pending, own, straps⟩ := answerManage_setup c.payload s
    exact ⟨h.pending.trans pending, by rw [h.setup]; exact move, h.own.trans own, h.straps.trans straps⟩

/-- The rows that are neither a cell nor a request nor a reset. -/
def namesEvent : Instr → Bool
  | .missCountSilent .. | .runupExpiry .. | .stopExpiry .. | .stallFlag .. | .stallBreak .. | .markRecognised ..
  | .settleExpiry .. | .strikeExpiry .. | .staggerGapExpiry | .strikeGrant | .dwellExpiry .. | .holdExpiry ..
  | .switchExpiry .. | .ruleFire .. | .silenceTimerExpiry | .resetAssert => true
  | _ => false

theorem exec_event_undisturbed {i : Instr} {s t : State} (hi : namesEvent i = true) (h : exec i s = .next t) :
    Undisturbed s t := by
  cases i <;> try cases hi
  all_goals obtain rfl := Host.Outcome.next.inj h
  case missCountSilent =>
    exact event_undisturbed _ (becomeSilent_acts rfl _ (Acts.refl.motion rfl _ _ countMiss_sound))
  case runupExpiry => exact event_undisturbed _ (expireRunup_acts rfl _ (Acts.refl.motion rfl _ _ countRunup_sound))
  case stopExpiry => exact event_undisturbed _ (expireStop_acts rfl _ (Acts.refl.motion rfl _ _ countStop_sound))
  case stallFlag => exact event_undisturbed _ (countStall_acts rfl _ .refl)
  case stallBreak => exact event_undisturbed _ (handIfChanged_acts _ _ (countStall_acts rfl _ .refl))
  case markRecognised => exact event_undisturbed _ (takeCueReport_acts _ _ _ .refl)
  case settleExpiry => exact event_undisturbed _ (expireSettle_acts _ (Acts.refl.lamp ..))
  case strikeExpiry => exact event_undisturbed _ (expireStrike_acts _ (Acts.refl.lamp ..))
  case staggerGapExpiry => exact event_undisturbed _ (expireGap_acts (countGap_acts .refl))
  case strikeGrant => exact event_undisturbed _ (offerGrant_acts .refl)
  case dwellExpiry => exact event_undisturbed _ (expireDwell_acts _ (countDwell_acts _ .refl))
  case holdExpiry => exact event_undisturbed _ (expireHold_acts _ (countHold_acts _ .refl))
  case switchExpiry => exact event_undisturbed _ (expireSwitch_acts _ (countSwitch_acts _ .refl))
  case ruleFire => exact event_undisturbed _ (takeRuleReport_acts _ _ _ .refl)
  case silenceTimerExpiry => exact silenceExpires_undisturbed s
  case resetAssert => exact ⟨rfl, rfl, rfl, rfl, rfl, fun _ => rfl⟩

/-- R18, R171: a reset leaves the set-up at its full reset values, or, where the supply is absent, as it was. -/
theorem exec_reset_setup {i : Instr} {s t : State} (hi : resetsPart i = true) (h : exec i s = .next t) :
    t.pending = s.pending ∧ (Held s t ∨ t.setup = Setup.initial) := by
  cases i <;> try cases hi
  all_goals obtain rfl := Host.Outcome.next.inj h
  case resetRelease =>
    unfold resetReleased
    dsimp only
    split
    · exact ⟨rfl, .inr rfl⟩
    · exact ⟨rfl, .inl ⟨rfl, .same, rfl, rfl⟩⟩
  case powerOn | lossOfSupply => exact ⟨rfl, .inr rfl⟩

/-- Every other row is a cell that arrives: its own, or the MANAGE cell of its request. -/
theorem exec_receive {i : Instr} (s : State) (event : namesEvent i = false) (reset : resetsPart i = false) :
    ∃ l c, exec i s = .next (receive l c s) := by
  cases i
  case missCountSilent | runupExpiry | stopExpiry | stallFlag | stallBreak | markRecognised | settleExpiry
    | strikeExpiry | staggerGapExpiry | strikeGrant | dwellExpiry | holdExpiry | switchExpiry | ruleFire
    | silenceTimerExpiry | resetAssert => cases event
  case resetRelease | powerOn | lossOfSupply => cases reset
  all_goals exact ⟨_, _, rfl⟩

/-- Every command but a reset leaves the set-up as a request may write it. -/
theorem exec_held {i : Instr} {s t : State} (hi : resetsPart i = false) (h : exec i s = .next t) : Held s t := by
  cases event : namesEvent i with
  | true => exact (exec_event_undisturbed event h).held
  | false =>
    obtain ⟨l, c, hx⟩ := exec_receive s event hi
    obtain rfl := Host.Outcome.next.inj (hx.symm.trans h)
    exact receive_held l c s

/-- Every command leaves the commands that wait as they are (log 27). -/
theorem exec_pending {i : Instr} {s t : State} (h : exec i s = .next t) : t.pending = s.pending := by
  cases reset : resetsPart i with
  | true => exact (exec_reset_setup reset h).1
  | false => exact (exec_held reset h).pending

end Sys2Proof.Machine
end

section
/-! PROOFS. What every request keeps of the settings and the definitions (O7, O8). -/

namespace Sys2Proof.Machine

/-! ### The settings (10, section 10.3; R124; R147) -/

theorem initial_settingsInRange : SettingsInRange Setup.initial := by decide

/-- R124: the limits of one chain's mode. -/
abbrev ChainMode.InRange (m : ChainMode) : Prop :=
  5 ≤ m.holdLimit ∧ m.holdLimit ≤ 250 ∧ 2 ≤ m.switchLimit ∧ m.switchLimit ≤ 10 ∧ m.runoutGuard ≤ 255

/-- R147: the limits of one rule. -/
abbrev Rule.InRange (x : Rule) : Prop :=
  1 ≤ x.persistence ∧ x.persistence ≤ 8 ∧ x.values &&& x.mask = x.values ∧ (x.active = true → x.mask ≠ 0)

/-- R124: what SET CHAIN MODE reads is in range. -/
theorem readMode_inRange {a b d f : Byte} {m : ChainMode} (h : readMode a b d f = some m) : m.InRange := by
  unfold readMode at h
  dsimp only at h
  split at h
  · rename_i limits
    obtain rfl := Option.some.inj h
    obtain ⟨hold_low, hold_high, switch_low, switch_high⟩ := limits
    exact ⟨hold_low, hold_high, switch_low, switch_high, Nat.le_of_lt_succ f.isLt⟩
  · exact absurd h (by simp)

/-- R147: what SET RULE reads is in range, with no match bit outside the mask. -/
theorem readRuleRecord_inRange {y : Vector Byte 5} {x : Rule} (h : readRuleRecord y = some x) : x.InRange := by
  unfold readRuleRecord at h
  dsimp only at h
  split at h
  · exact absurd h (by simp)
  · split at h
    · exact absurd h (by simp)
    · split at h
      · exact absurd h (by simp)
      · rename_i masked
        obtain rfl := Option.some.inj h
        refine ⟨by dsimp only; omega, by dsimp only; omega, ?_, fun active mask => masked ?_⟩
        · exact (BitVec.and_assoc ..).trans (congrArg _ (BitVec.and_self ..))
        · exact Bool.and_eq_true_iff.2 ⟨active, beq_iff_eq.2 mask⟩

/-- A vector every entry of which has a property keeps it when an entry that has it is written. -/
theorem get_set_all {α : Type} {n : Nat} {P : α → Prop} {v : Vector α n} {i : Fin n} {x : α} (h : ∀ j, P (v.get j))
    (hx : P x) (j : Fin n) : P ((v.set i x).get j) := by
  rw [get_set_fin]
  split
  · exact hx
  · exact h j

theorem SetupMove.settingsInRange {own : Station} {su su' : Setup} (move : SetupMove own su su')
    (h : SettingsInRange su) : SettingsInRange su' := by
  obtain ⟨params, modes, rules⟩ := h
  cases move with
  | mode c new a b d f read =>
    exact ⟨params, get_set_all (P := ChainMode.InRange) modes (readMode_inRange read), rules⟩
  | rule i x octets read =>
    exact ⟨params, modes, get_set_all (P := Rule.InRange) rules (readRuleRecord_inRange read)⟩
  | params code v low high range above below =>
    refine ⟨?_, modes, rules⟩
    unfold paramRange at range
    split at range <;> simp only [Option.some.injEq, Prod.mk.injEq, reduceCtorEq] at range <;>
      simp only [Params.write] <;> omega
  | _ => exact ⟨params, modes, rules⟩

/-! ### Pages (R71, R72) -/

theorem initial_pagesSingle : PagesSingle Setup.initial := by
  intro p q j k g h
  have slots : ∀ p j, (Setup.initial.reels.get p).slots.get j = none := by decide
  rw [slots] at h
  exact absurd h (by simp)

theorem mem_allPositions (p : Fin 8) : p ∈ allPositions := by revert p; decide
theorem mem_allChains (c : Fin 4) : c ∈ allChains := by revert c; decide

/-- R71: a page that is in no slot but the named one. -/
theorem pageElsewhere_eq_false {su : Setup} {p : Fin 8} {k : Fin 4} {g : Fin 32}
    (h : pageElsewhere su p k g = false) (q : Fin 8) (j : Fin 4) (hq : (su.reels.get q).slots.get j = some g) :
    q = p ∧ j = k := by
  unfold pageElsewhere at h
  rw [List.any_eq_false] at h
  have at_q := h q (mem_allPositions q)
  rw [Bool.not_eq_true, List.any_eq_false] at at_q
  simpa [hq] using at_q j (mem_allChains j)

theorem setSlot_slots (su : Setup) (p q : Fin 8) (k j : Fin 4) (g : Option (Fin 32)) :
    ((setSlot su p k g).reels.get q).slots.get j =
      if p = q ∧ k = j then g else (su.reels.get q).slots.get j := by
  unfold setSlot
  dsimp only
  rw [get_set_fin]
  by_cases hp : p = q
  · subst hp
    simp only [if_true, true_and]
    exact get_set_fin ..
  · rw [if_neg hp, if_neg (fun h => hp h.1)]

theorem setSlot_pagesSingle {su : Setup} {p : Fin 8} {k : Fin 4} {g : Option (Fin 32)}
    (free : g.any (pageElsewhere su p k) = false) (h : PagesSingle su) : PagesSingle (setSlot su p k g) := by
  have only_there : ∀ q j x, g = some x → (su.reels.get q).slots.get j = some x → q = p ∧ j = k := by
    rintro q j x rfl
    exact pageElsewhere_eq_false free q j
  intro q q' j j' x hq hq'
  rw [setSlot_slots] at hq hq'
  split at hq
  · rename_i here
    split at hq'
    · rename_i here'
      exact ⟨here.1.symm.trans here'.1, here.2.symm.trans here'.2⟩
    · rename_i elsewhere
      obtain ⟨rfl, rfl⟩ := only_there q' j' x hq hq'
      exact absurd ⟨rfl, rfl⟩ elsewhere
  · split at hq'
    · rename_i elsewhere _
      obtain ⟨rfl, rfl⟩ := only_there q j x hq' hq
      exact absurd ⟨rfl, rfl⟩ elsewhere
    · exact h q q' j j' x hq hq'

/-- A reel whose last picture is written keeps its slots. -/
theorem setLastPicture_slots (su : Setup) (p q : Fin 8) (v : Option Int) :
    ((su.reels.set p { su.reels.get p with lastPicture := v }).get q).slots = (su.reels.get q).slots := by
  rw [get_set_fin]
  split
  · rename_i hp; rw [hp]
  · rfl

theorem SetupMove.pagesSingle {own : Station} {su su' : Setup} (move : SetupMove own su su') (h : PagesSingle su) :
    PagesSingle su' := by
  cases move with
  | slot p k g free => exact setSlot_pagesSingle free h
  | lastPicture p v =>
    intro q q' j j' x hq hq'
    dsimp only at hq hq'
    rw [setLastPicture_slots] at hq hq'
    exact h q q' j j' x hq hq'
  | _ => exact h

/-! ### Stations (R2, R22, R123) -/

theorem initial_stationsSingle (own : Station) : StationsSingle own Setup.initial := by
  have position : ∀ p, positionStation Setup.initial p = none := by decide
  have chain : ∀ c, chainStation Setup.initial c = none := by decide
  refine ⟨fun p q h => ?_, fun c d h => ?_, fun p c h => ?_, fun p => ?_, fun c => ?_⟩
  · rw [position] at h; exact absurd h (by decide)
  · rw [chain] at h; exact absurd h (by decide)
  · rw [position] at h; exact absurd h (by decide)
  · rw [position]; simp
  · rw [chain]; simp

theorem positionAt_eq_none {su : Setup} {st : Station} :
    positionAt su st = none ↔ ∀ p, positionStation su p ≠ some st := by
  unfold positionAt positionStation
  rw [List.find?_eq_none]
  refine ⟨fun h p => ?_, fun h p _ => ?_⟩
  · have := h p (mem_allPositions p)
    cases hp : su.positions.get p <;> simp_all
  · have := h p
    cases hp : su.positions.get p <;> simp_all

theorem chainAt_eq_none {su : Setup} {st : Station} :
    chainAt su st = none ↔ ∀ c, chainStation su c ≠ some st := by
  unfold chainAt chainStation
  rw [List.find?_eq_none]
  refine ⟨fun h c => ?_, fun h c _ => ?_⟩
  · have := h c (mem_allChains c)
    cases hc : su.chains.get c <;> simp_all
  · have := h c
    cases hc : su.chains.get c <;> simp_all

theorem positionStation_set (su : Setup) (p q : Fin 8) (new : Option PosDef) :
    positionStation { su with positions := su.positions.set p new } q =
      if p = q then new.map PosDef.station else positionStation su q := by
  unfold positionStation
  dsimp only
  rw [get_set_fin]
  split <;> rfl

theorem chainStation_set (su : Setup) (c d : Fin 4) (new : Option ChainDef) :
    chainStation { su with chains := su.chains.set c new } d =
      if c = d then new.map ChainDef.station else chainStation su d := by
  unfold chainStation
  dsimp only
  rw [get_set_fin]
  split <;> rfl

/-- R22: what CONFLICT has ruled out of a position's new station. -/
theorem definePosition_free {own : Station} {su : Setup} {p : Fin 8} {d : PosDef}
    (h : definePositionConflict own su p d = false) :
    d.station ≠ own ∧ (∀ q, q ≠ p → positionStation su q ≠ some d.station)
      ∧ ∀ c, chainStation su c ≠ some d.station := by
  unfold definePositionConflict at h
  simp only [Bool.or_eq_false_iff, beq_eq_false_iff_ne, Option.isSome_eq_false_iff, Option.isNone_iff_eq_none] at h
  obtain ⟨⟨own_free, positions_free⟩, chains_free⟩ := h
  refine ⟨own_free, fun q hq => ?_, chainAt_eq_none.1 chains_free⟩
  have := positionAt_eq_none.1 positions_free q
  rwa [positionStation_set, if_neg (Ne.symm hq)] at this

theorem setPosition_stationsSingle {own : Station} {su : Setup} {p : Fin 8} {new : Option PosDef}
    (free : new.any (definePositionConflict own su p) = false) (h : StationsSingle own su) :
    StationsSingle own { su with positions := su.positions.set p new } := by
  obtain ⟨positions, chains, apart, position_own, chain_own⟩ := h
  have fresh : ∀ st, new.map PosDef.station = some st →
      st ≠ own ∧ (∀ q, q ≠ p → positionStation su q ≠ some st) ∧ ∀ c, chainStation su c ≠ some st := by
    intro st hst
    obtain ⟨d, rfl, rfl⟩ := Option.map_eq_some_iff.1 hst
    exact definePosition_free (by simpa using free)
  refine ⟨fun q q' hs he => ?_, chains, fun q c hs he => ?_, fun q ho => ?_, chain_own⟩
  · rw [positionStation_set] at hs he
    rw [positionStation_set] at he
    obtain ⟨st, hst⟩ := Option.isSome_iff_exists.1 hs
    rw [hst] at he
    split at hst
    · rename_i here
      subst here
      split at he
      · assumption
      · rename_i other
        exact absurd he.symm ((fresh st hst).2.1 q' (Ne.symm other))
    · rename_i other
      split at he
      · rename_i here
        subst here
        exact absurd hst ((fresh st he.symm).2.1 q (Ne.symm other))
      · exact positions q q' (by rw [hst]; rfl) (hst.trans he)
  · rw [positionStation_set] at hs he
    change _ = chainStation su c at he
    split at he
    · obtain ⟨st, hst⟩ := Option.isSome_iff_exists.1 hs
      rename_i here
      rw [if_pos here] at hst
      exact absurd (he.symm.trans hst) ((fresh st hst).2.2 c)
    · rename_i other
      rw [if_neg other] at hs
      exact apart q c hs he
  · rw [positionStation_set] at ho
    split at ho
    · exact (fresh own ho).1 rfl
    · exact position_own q ho

/-- R123: what CONFLICT has ruled out of a chain's new station and of its new ports. -/
theorem defineChain_free {own : Station} {su : Setup} {c : Fin 4} {d : ChainDef}
    (h : defineChainConflict own su c d = false) :
    d.station ≠ own ∧ (∀ p, positionStation su p ≠ some d.station)
      ∧ (∀ c', c' ≠ c → chainStation su c' ≠ some d.station)
      ∧ (∀ p ∈ chainPositions (some d), portTaken su c p = false) ∧ ∀ p, d.port0 = some p → d.port1 ≠ some p := by
  unfold defineChainConflict at h
  simp only [Bool.or_eq_false_iff, beq_eq_false_iff_ne, Option.isSome_eq_false_iff, Option.isNone_iff_eq_none,
    List.any_eq_false, Bool.not_eq_true, Bool.and_eq_false_iff] at h
  obtain ⟨⟨⟨⟨own_free, positions_free⟩, chains_free⟩, ports_free⟩, ports_apart⟩ := h
  refine ⟨own_free, positionAt_eq_none.1 positions_free, fun c' hc => ?_, ports_free, fun p h0 h1 => ?_⟩
  · have := chainAt_eq_none.1 chains_free c'
    rwa [chainStation_set, if_neg (Ne.symm hc)] at this
  · rcases ports_apart with absent | differ
    · rw [h0] at absent; exact absurd absent (by simp)
    · exact differ (h0.trans h1.symm)

theorem setChain_stationsSingle {own : Station} {su : Setup} {c : Fin 4} {new : Option ChainDef}
    (free : new.any (defineChainConflict own su c) = false) (h : StationsSingle own su) :
    StationsSingle own { su with chains := su.chains.set c new } := by
  obtain ⟨positions, chains, apart, position_own, chain_own⟩ := h
  have fresh : ∀ st, new.map ChainDef.station = some st →
      st ≠ own ∧ (∀ p, positionStation su p ≠ some st) ∧ ∀ c', c' ≠ c → chainStation su c' ≠ some st := by
    intro st hst
    obtain ⟨d, rfl, rfl⟩ := Option.map_eq_some_iff.1 hst
    obtain ⟨own_free, positions_free, chains_free, _, _⟩ := defineChain_free (d := d) (by simpa using free)
    exact ⟨own_free, positions_free, chains_free⟩
  refine ⟨positions, fun d d' hs he => ?_, fun p d hs he => ?_, position_own, fun d ho => ?_⟩
  · rw [chainStation_set] at hs he
    rw [chainStation_set] at he
    obtain ⟨st, hst⟩ := Option.isSome_iff_exists.1 hs
    rw [hst] at he
    split at hst
    · rename_i here
      subst here
      split at he
      · assumption
      · rename_i other
        exact absurd he.symm ((fresh st hst).2.2 d' (Ne.symm other))
    · rename_i other
      split at he
      · rename_i here
        subst here
        exact absurd hst ((fresh st he.symm).2.2 d (Ne.symm other))
      · exact chains d d' (by rw [hst]; rfl) (hst.trans he)
  · rw [chainStation_set] at he
    change positionStation su p = _ at he
    change (positionStation su p).isSome = true at hs
    split at he
    · obtain ⟨st, hst⟩ := Option.isSome_iff_exists.1 hs
      exact (fresh st (he.symm.trans hst)).2.1 p hst
    · exact apart p d hs he
  · rw [chainStation_set] at ho
    split at ho
    · exact (fresh own ho).1 rfl
    · exact chain_own d ho

theorem SetupMove.stationsSingle {own : Station} {su su' : Setup} (move : SetupMove own su su')
    (h : StationsSingle own su) : StationsSingle own su' := by
  cases move with
  | position p new free => exact setPosition_stationsSingle free h
  | chain c new free => exact setChain_stationsSingle free h
  | _ => exact h

/-! ### Ports (R123) -/

theorem initial_portsSingle : PortsSingle Setup.initial := by
  have port : ∀ c x, portPosition Setup.initial c x = none := fun c x => by
    have : Setup.initial.chains.get c = none := by revert c; decide
    unfold portPosition
    rw [this]
    rfl
  intro c d p
  simp only [port]
  simp

theorem portIn_eq_none {su : Setup} {p : Fin 8} {c : Fin 4} :
    portIn su p c = none ↔ ∀ x, portPosition su c x ≠ some p := by
  unfold portIn portPosition
  cases hc : su.chains.get c with
  | none => simp
  | some d =>
    simp only [Option.bind_some]
    refine ⟨fun h x => ?_, fun h => ?_⟩
    · split at h
      · cases h
      · split at h
        · cases h
        · cases x <;> assumption
    · have h0 : d.port0 ≠ some p := h .zero
      have h1 : d.port1 ≠ some p := h .one
      rw [if_neg h0, if_neg h1]

theorem chainOf_eq_none {su : Setup} {p : Fin 8} :
    chainOf su p = none ↔ ∀ c x, portPosition su c x ≠ some p := by
  unfold chainOf
  rw [List.findSome?_eq_none_iff]
  exact ⟨fun h c => portIn_eq_none.1 (h c (mem_allChains c)), fun h c _ => portIn_eq_none.2 (h c)⟩

theorem portPosition_set (su : Setup) (c d : Fin 4) (new : Option ChainDef) (x : Port) :
    portPosition { su with chains := su.chains.set c new } d x =
      if c = d then new.bind (fun n => n.at x) else portPosition su d x := by
  unfold portPosition
  dsimp only
  rw [get_set_fin]
  split <;> rfl

/-- R123: a port position of another chain is taken. -/
theorem portTaken_eq_false {su : Setup} {c : Fin 4} {p : Fin 8} (h : portTaken su c p = false) (d : Fin 4)
    (hd : d ≠ c) (x : Port) : portPosition su d x ≠ some p := by
  unfold portTaken at h
  split at h
  · exact absurd h (by decide)
  · rename_i none_there
    have := chainOf_eq_none.1 none_there d x
    rwa [portPosition_set, if_neg (Ne.symm hd)] at this

theorem mem_chainPositions {d : ChainDef} {x : Port} {p : Fin 8} (h : d.at x = some p) :
    p ∈ chainPositions (some d) := by
  unfold chainPositions
  rw [List.mem_append, Option.mem_toList, Option.mem_toList]
  cases x
  · exact .inl h
  · exact .inr h

/-- R123 in one clause: a position at two ports is at one port twice. -/
theorem portsSingle_iff {su : Setup} :
    PortsSingle su ↔ ∀ (c d : Fin 4) (x y : Port) (p : Fin 8),
      portPosition su c x = some p → portPosition su d y = some p → c = d ∧ x = y := by
  refine ⟨fun h c d x y p hx hy => ?_, fun h c d p => ⟨fun hx hy => (h c d _ _ p hx hy).1,
    fun hx hy => (h c d _ _ p hx hy).1, fun hx hy => absurd (h c d _ _ p hx hy).2 (by decide)⟩⟩
  cases x <;> cases y
  · exact ⟨(h c d p).1 hx hy, rfl⟩
  · exact absurd hy ((h c d p).2.2 hx)
  · exact absurd hx ((h d c p).2.2 hy)
  · exact ⟨(h c d p).2.1 hx hy, rfl⟩

theorem setChain_portsSingle {own : Station} {su : Setup} {c : Fin 4} {new : Option ChainDef}
    (free : new.any (defineChainConflict own su c) = false) (h : PortsSingle su) :
    PortsSingle { su with chains := su.chains.set c new } := by
  rw [portsSingle_iff] at h ⊢
  have fresh : ∀ x p, (new.bind fun n => n.at x) = some p →
      (∀ d, d ≠ c → ∀ y, portPosition su d y ≠ some p)
        ∧ ∀ y, (new.bind fun n => n.at y) = some p → x = y := by
    intro x p hx
    obtain ⟨n, rfl, hn⟩ := Option.bind_eq_some_iff.1 hx
    obtain ⟨_, _, _, ports_free, ports_apart⟩ := defineChain_free (d := n) (by simpa using free)
    refine ⟨fun d hd y => portTaken_eq_false (ports_free p (mem_chainPositions hn)) d hd y, fun y hy => ?_⟩
    have hy : n.at y = some p := hy
    cases x <;> cases y
    · rfl
    · exact absurd hy (ports_apart p hn)
    · exact absurd hn (ports_apart p hy)
    · rfl
  intro d d' x y p hx hy
  rw [portPosition_set] at hx hy
  split at hx
  · rename_i here
    split at hy
    · rename_i here'
      exact ⟨here.symm.trans here', (fresh x p hx).2 y hy⟩
    · rename_i other
      exact absurd hy ((fresh x p hx).1 d' (Ne.symm other) y)
  · rename_i other
    split at hy
    · exact absurd hx ((fresh y p hy).1 d (Ne.symm other) x)
    · exact h d d' x y p hx hy

theorem SetupMove.portsSingle {own : Station} {su su' : Setup} (move : SetupMove own su su') (h : PortsSingle su) :
    PortsSingle su' := by
  cases move with
  | chain c new free => exact setChain_portsSingle free h
  | _ => exact h

end Sys2Proof.Machine

namespace Sys2Proof.Proofs

open Sys2Proof.Machine

/-- A step leaves the set-up as a request may write it, or at its full reset values. -/
theorem step_setup {s t : State} (h : step s = .next t) :
    (SetupMove s.port.own s.setup t.setup ∧ t.port.own = s.port.own) ∨ t.setup = Setup.initial := by
  obtain ⟨i, rest, _, hx⟩ | ⟨_, rfl⟩ := step_cases h
  · cases reset : resetsPart i with
    | true => exact (exec_reset_setup reset hx).2.imp_left fun h => ⟨h.setup, h.own⟩
    | false => exact .inl ⟨(exec_held reset hx).setup, (exec_held reset hx).own⟩
  · exact .inl ⟨(clockCycle_undisturbed s).held.setup, (clockCycle_undisturbed s).own⟩

/-- Settles O7: a request is refused CONFLICT where what it defines would not stay single; a reset leaves nothing
defined. -/
theorem definitionsKept : Obligations.DefinitionsKept := by
  intro s t pages stations ports hs
  obtain ⟨move, own⟩ | initial := step_setup hs
  · exact ⟨move.pagesSingle pages, own ▸ move.stationsSingle stations, move.portsSingle ports⟩
  · rw [initial]
    exact ⟨initial_pagesSingle, initial_stationsSingle _, initial_portsSingle⟩

/-- Settles O8: a request is refused RANGE where a setting would leave its range. -/
theorem settingsKept : Obligations.SettingsKept := by
  intro s t h hs
  obtain ⟨move, _⟩ | initial := step_setup hs
  · exact move.settingsInRange h
  · rw [initial]
    exact initial_settingsInRange

/-- Settles O1: no command touches the commands that wait behind it. -/
theorem stepRunsFrontCommand : Obligations.StepRunsFrontCommand := by
  intro c s
  obtain ⟨t, ht, _⟩ := exec_moves c s
  exact ⟨rfl, t, ht, exec_pending ht⟩

end Sys2Proof.Proofs
end

section
/-! PROOFS. Which rows leave the set-up and the ladder alone (O10, O11), and how every request is answered (O20). -/

namespace Sys2Proof.Machine

/-! ### Rows that write no set-up and take no alarm -/

/-- A cell that is no MANAGE on the outbound leg, is invalid, or finds the part not LOCKED. -/
theorem receive_undisturbed {l : Leg} {c : Cell} {s : State}
    (h : l = .ret ∨ c.kind? ≠ some .manage ∨ c.valid = false ∨ s.port.monitor ≠ .locked) :
    Undisturbed s (receive l c s) := by
  rcases receive_cases l c s with same | ⟨locked, valid, leg, kind, _, _⟩
  · exact same
  · rcases h with ret | other | invalid | unlocked
    · rw [ret] at leg; exact absurd leg (by decide)
    · exact absurd kind other
    · rw [invalid] at valid; exact absurd valid (by decide)
    · exact absurd locked unlocked

theorem receive_make_undisturbed {l : Leg} {k : CellKind} (hk : k ≠ .manage) (st : Byte) (m : Payload) (s : State) :
    Undisturbed s (receive l (Cell.make k st m) s) :=
  receive_undisturbed (.inr (.inl (by simpa using hk)))

theorem request_setup {m : Payload} {s t : State} (hx : request m s = .next t)
    (h : (answerManage m s).state.setup = s.setup) : t.setup = s.setup := by
  obtain ⟨u, hu, kept⟩ := request_cases m s
  obtain rfl := Host.Outcome.next.inj (hu.symm.trans hx)
  exact kept.elim Undisturbed.setup fun k => k.setup.trans h

theorem request_ladderKept {m : Payload} {s t : State} (hx : request m s = .next t)
    (h : Written s (answerManage m s).state) : LadderKept s t := by
  obtain ⟨u, hu, kept⟩ := request_cases m s
  obtain rfl := Host.Outcome.next.inj (hu.symm.trans hx)
  obtain ⟨su, _, written⟩ := h
  exact kept.elim Undisturbed.ladderKept fun k => (written.trans k).ladderKept

/-- R163: a code no block owns names no request. -/
theorem Request.ofPayload_eq_none {m : Payload} (h : unknownCode m[0] = true) : Request.ofPayload m = none := by
  simp only [unknownCode, Bool.or_eq_true, beq_iff_eq, decide_eq_true_eq] at h
  unfold Request.ofPayload
  split <;> first | omega | rfl

theorem answerManage_unknown {m : Payload} (h : unknownCode m[0] = true) (s : State) :
    answerManage m s = refuse .badreq s := by
  unfold answerManage
  rw [Request.ofPayload_eq_none h]

/-- The row UNKNOWN_REQUEST is the MANAGE cell whose payload begins with its code and its tag. -/
theorem exec_unknownRequest (code tag : Byte) (x : Vector Byte 11) (s : State) :
    ∃ m : Payload, m[0] = code ∧ m[1] = tag ∧ exec (.unknownRequest code tag x) s = request m s :=
  ⟨_, rfl, rfl, rfl⟩

/-- The cells that are no request, as the table lists their rows. -/
theorem exec_cell_undisturbed {i : Instr} {s t : State} (l : Leg) (c : Cell) (hw : i.wellFormed = true)
    (hu : ∀ l c, i = .cellInSearchingOrLost l c → s.port.monitor ≠ .locked) (hm : ∀ st m, i ≠ .outboundManage st m)
    (ha : arrives i = some (l, c)) (hx : exec i s = .next t) : Undisturbed s t := by
  cases i <;> try cases ha
  all_goals obtain rfl := Host.Outcome.next.inj hx
  case invalidCell => exact receive_undisturbed (.inr (.inr (.inl (by simpa [Instr.wellFormed] using hw))))
  case cellInSearchingOrLost => exact receive_undisturbed (.inr (.inr (.inr (hu _ _ rfl))))
  case outboundManage => exact absurd rfl (hm _ _)
  case outboundPassthrough k _ _ => exact receive_make_undisturbed (by cases k <;> decide) ..
  case returnPassthrough k _ _ => exact receive_undisturbed (.inl rfl)
  all_goals exact receive_make_undisturbed (by decide) ..

/-! ### The REPLY to every request (R163, R164) -/

/-- R165: a request is answered DONE, or is refused and changes nothing: every branch of every request is one or the
other. -/
theorem carryOut_done_or_same (q : Request) (s : State) :
    (carryOut q s).result = .done ∨ (carryOut q s).state = s := by
  cases q <;>
    simp only [carryOut, reqDefinePosition, reqReadPosition, reqDefineChain, reqSetChainMode, reqReadChain, reqLoadCue,
      writeCue, reqReadCue, reqClearPage, reqMapPage, reqSetReel, reqReadReel, reqSetPosition, reqRestartCues,
      reqSetScreen, reqReadScreen, reqSetRule, reqReadRule, reqTakeAlarm, reqReleaseAlarm, reqSetAlarmEnables,
      reqReadAlarms, reqSetParam, reqReadParam, reqResetPart] <;>
    repeat' split
  all_goals first | exact .inl rfl | exact .inr rfl

theorem answerManage_done_or_same (m : Payload) (s : State) :
    (answerManage m s).result = .done ∨ (answerManage m s).state = s := by
  unfold answerManage
  split
  · exact carryOut_done_or_same ..
  · exact .inr rfl

/-- R164: the code octet of a REPLY has the echoed code in its low five bits. -/
theorem echoedCode_low (b : Byte) (r : Result) : (echoedCode b ||| byteOf (32 * r.code)) &&& 31 = echoedCode b := by
  cases r <;> revert b <;> decide

/-- R164: the result stands above them, and is 0 for DONE. -/
theorem echoedCode_high (b : Byte) : (echoedCode b ||| byteOf (32 * Result.done.code)) >>> 5 = 0 := by
  revert b; decide

theorem unknownCode_iff {code : Byte} : unknownCode code = true ↔ code = 0 ∨ 25 ≤ code.toNat := by
  revert code; decide

/-- R164: an unknown code is echoed as 0. -/
theorem replyCell_unknown {m : Payload} (s : State) (h : unknownCode m[0] = true) :
    replyCell m s (refuse .badreq s) = s.replyCell 0 m[1] 1 (Vector.replicate 10 0) := by
  have echoed : echoedCode m[0] = 0 := by
    rcases unknownCode_iff.1 h with zero | above
    · rw [zero]; rfl
    · unfold echoedCode
      rw [if_neg (by omega)]
  unfold replyCell replyPayload State.replyCell
  rw [echoed]
  have code : (0 ||| byteOf (32 * Result.badreq.code) : Byte) = BitVec.ofNat 8 (0 + 32 * 1) := by decide
  exact congrArg (fun o => Cell.make .reply (s.port.own.setWidth 8) #v[o, m[1], s.port.sweep, 0, 0, 0, 0, 0, 0, 0, 0, 0, 0]) code

end Sys2Proof.Machine

namespace Sys2Proof.Proofs

open Sys2Proof.Machine

/-- Settles O10: a row that is no request with a write reaches no operation that writes the set-up. -/
theorem setupHolds : Obligations.SetupHolds := by
  intro i s t hw hu hx reset
  have held := exec_held reset hx
  refine ⟨held.own, held.straps, fun reads => ?_⟩
  cases arrived : arrives i with
  | some x =>
    obtain ⟨l, c⟩ := x
    refine (exec_cell_undisturbed l c hw hu ?_ arrived hx).setup
    rintro st m rfl
    cases reads
  | none =>
    cases event : namesEvent i with
    | true => exact (exec_event_undisturbed event hx).setup
    | false =>
      cases i <;> try first | cases arrived; done | cases event; done | cases reset; done | cases reads; done
      case unknownRequest code tag x =>
        obtain ⟨m, rfl, _, meaning⟩ := exec_unknownRequest code tag x s
        exact request_setup (meaning ▸ hx) (by rw [answerManage_unknown hw]; rfl)
      case readPosition => exact request_setup hx (congrArg State.setup (reqReadPosition_run ..))
      case readChain => exact request_setup hx (congrArg State.setup (reqReadChain_run ..))
      case readCue => exact request_setup hx (congrArg State.setup (reqReadCue_run ..))
      case readReel => exact request_setup hx (congrArg State.setup (reqReadReel_run ..))
      case setPosition => exact request_setup hx (reqSetPosition_undisturbed ..).setup
      case restartCues => exact request_setup hx (reqRestartCues_undisturbed ..).setup
      case readScreen => exact request_setup hx (congrArg State.setup (reqReadScreen_run ..))
      case readRule => exact request_setup hx (congrArg State.setup (reqReadRule_run ..))
      case takeAlarm tag =>
        refine request_setup (m := payload13 18 tag) hx ?_
        show (reqTakeAlarm s).state.setup = s.setup
        unfold reqTakeAlarm
        split <;> rfl
      case releaseAlarm tag =>
        refine request_setup (m := payload13 19 tag) hx ?_
        show (reqReleaseAlarm s).state.setup = s.setup
        unfold reqReleaseAlarm
        split <;> rfl
      case readAlarms => exact request_setup hx (congrArg State.setup (reqReadAlarms_run ..))
      case readParam => exact request_setup hx (congrArg State.setup (reqReadParam_run ..))
      case resetPart => exact request_setup hx rfl

/-- Settles O11: the blocks leave the ladder alone (`Acts.stack`, `Acts.underService`), and of the requests TAKE ALARM,
RELEASE ALARM and RESET PART alone touch it. -/
theorem ladderChangesByRequestOnly : Obligations.LadderChangesByRequestOnly := by
  intro i s t hw hu hx reset untaken unmanaged
  cases arrived : arrives i with
  | some x => exact (exec_cell_undisturbed x.1 x.2 hw hu unmanaged arrived hx).ladderKept
  | none =>
    cases event : namesEvent i with
    | true => exact (exec_event_undisturbed event hx).ladderKept
    | false =>
      cases i <;> try first | cases arrived; done | cases event; done | cases reset; done
      case unknownRequest code tag x =>
        obtain ⟨m, rfl, _, meaning⟩ := exec_unknownRequest code tag x s
        exact request_ladderKept (meaning ▸ hx) (by rw [answerManage_unknown hw]; exact .refl s)
      case definePosition => exact request_ladderKept hx (reqDefinePosition_written ..)
      case readPosition => exact request_ladderKept hx (.of_eq (reqReadPosition_run ..))
      case defineChain => exact request_ladderKept hx (reqDefineChain_written ..)
      case setChainMode => exact request_ladderKept hx (reqSetChainMode_written ..)
      case readChain => exact request_ladderKept hx (.of_eq (reqReadChain_run ..))
      case loadCue => exact request_ladderKept hx (reqLoadCue_written ..)
      case readCue => exact request_ladderKept hx (.of_eq (reqReadCue_run ..))
      case clearPage => exact request_ladderKept hx (reqClearPage_written ..)
      case mapPage => exact request_ladderKept hx (reqMapPage_written ..)
      case setReel => exact request_ladderKept hx (reqSetReel_written ..)
      case readReel => exact request_ladderKept hx (.of_eq (reqReadReel_run ..))
      case setPosition => exact request_ladderKept hx ⟨s.setup, .same, reqSetPosition_undisturbed ..⟩
      case restartCues => exact request_ladderKept hx ⟨s.setup, .same, reqRestartCues_undisturbed ..⟩
      case setScreen => exact request_ladderKept hx (reqSetScreen_written ..)
      case readScreen => exact request_ladderKept hx (.of_eq (reqReadScreen_run ..))
      case setRule => exact request_ladderKept hx (reqSetRule_written ..)
      case readRule => exact request_ladderKept hx (.of_eq (reqReadRule_run ..))
      case takeAlarm tag => exact absurd rfl (untaken tag).1
      case releaseAlarm tag => exact absurd rfl (untaken tag).2.1
      case setAlarmEnables => exact request_ladderKept hx (reqSetAlarmEnables_written ..)
      case readAlarms => exact request_ladderKept hx (.of_eq (reqReadAlarms_run ..))
      case setParam => exact request_ladderKept hx (reqSetParam_written ..)
      case readParam => exact request_ladderKept hx (.of_eq (reqReadParam_run ..))
      case resetPart tag => exact absurd rfl (untaken tag).2.2

/-- Settles O20: the REPLY is made of the answer (R164), and a refusal has changed nothing (R165). -/
theorem everyRequestAnswered : Obligations.EveryRequestAnswered := by
  refine fun m s ha hr => ⟨?_, fun code tag x unknown => ?_⟩
  · refine ⟨_, _, request_acting ha m, rfl, make_kind? .., make_valid .., make_station .., echoedCode_low .., rfl, rfl,
      fun refused => ?_⟩
    rcases answerManage_done_or_same m s with done | same
    · refine absurd ?_ refused
      show (echoedCode m[0] ||| byteOf (32 * (answerManage m s).result.code)) >>> 5 = 0
      rw [done]
      exact echoedCode_high _
    · rw [same]
      exact shows_of_right .outbound _ hr
  · obtain ⟨m, rfl, rfl, meaning⟩ := exec_unknownRequest code tag x s
    have badreq : unknownCode m[0] = true := unknownCode_iff.2 unknown
    rw [meaning, request_acting ha, answerManage_unknown badreq, replyCell_unknown s badreq]
    exact congrArg _ (shows_of_right .outbound _ hr)

end Sys2Proof.Proofs
end

section
/-! PROOFS. The Loop Port: cells forwarded whole (O12, O15), HEAD (O16), the silence timer (O2), RESET and the supply
(O17, O18), and what stands after a full reset (O3). -/

namespace Sys2Proof.Machine

/-! ### Cells that arrive (R1, R4, R15) -/

theorem exec_of_arrives {i : Instr} {l : Leg} {c : Cell} (h : arrives i = some (l, c)) (s : State) :
    exec i s = .next (receive l c s) := by
  cases i <;> first | cases h; done | (obtain ⟨rfl, rfl⟩ := Prod.mk.inj (Option.some.inj h); rfl)

/-- R4: the contact is open while RESET is held. -/
theorem contact_of_held {s : State} (hr : s.contactRight) (held : s.port.resetHeld = true) :
    s.port.contact = false := by
  rw [show s.port.contact = contactAsserted s.port s.run from hr]
  simp [contactAsserted, held]

/-! ### Cells not for the part (R2, R6, R10, R11, R126, R173) -/

theorem takeManage_elsewhere {st : Byte} (m : Payload) {s : State} (h : st ≠ s.port.own.setWidth 8) :
    takeOutbound .manage (Cell.make .manage st m) s = forward (Cell.make .manage st m) s := by
  show takeManage _ s = _
  unfold takeManage
  exact if_neg fun own => h (stationOf_eq_own own)

/-- R126: an order with one of the kinds 1 to 6 is for a position; a SELECT has an input for its argument. -/
theorem Order.ofOctets_cases {k a : Byte} {o : Order} (h : Order.ofOctets k a = some o) :
    (1 ≤ k.toNat ∧ k.toNat ≤ 6 ∧ ∀ i, o ≠ .select i) ∨ (k = 7 ∧ a.toNat ≤ 3 ∧ ∃ i, o = .select i) := by
  unfold Order.ofOctets at h
  split at h
  case h_7 kind =>
    obtain ⟨i, read, rfl⟩ := Option.map_eq_some_iff.1 h
    refine .inr ⟨BitVec.eq_of_toNat_eq kind, ?_, i, rfl⟩
    unfold Input.ofCode at read
    split at read <;> first | omega | cases read
  case h_8 => cases h
  all_goals
    obtain rfl := Option.some.inj h
    exact .inl ⟨by omega, by omega, fun i => by simp⟩

theorem deskOrder_unsuited {su : Setup} {st : Byte} {m : Payload}
    (position : 1 ≤ m[0].toNat ∧ m[0].toNat ≤ 6 → ∀ x p, stationOf st = some x → positionStation su p ≠ some x)
    (select : m[0] = 7 ∧ m[1].toNat ≤ 3 → ∀ x c, stationOf st = some x → chainStation su c ≠ some x) :
    deskOrder su st m = none := by
  unfold deskOrder
  split
  · rename_i x i hst ho
    rcases Order.ofOctets_cases ho with ⟨_, _, other⟩ | ⟨kind, arg, _⟩
    · exact absurd rfl (other i)
    · rw [chainAt_eq_none.2 fun c => select ⟨kind, arg⟩ x c hst]
      rfl
  · rename_i x o other hst ho
    rcases Order.ofOctets_cases ho with ⟨low, high, _⟩ | ⟨_, _, i, rfl⟩
    · rw [positionAt_eq_none.2 fun p => position ⟨low, high⟩ x p hst]
      rfl
    · exact absurd rfl (other i)
  · rfl

theorem takeState_reported {c : Cell} {s : State}
    (h : ∀ x p, stationOf c.station = some x → positionAt s.setup x = some p → s.port.reportedPositions.get p = true) :
    takeState c s = s := by
  unfold takeState
  split
  · rename_i p hp
    obtain ⟨x, hst, hx⟩ := Option.bind_eq_some_iff.1 hp
    rw [if_pos (h x p hst hx)]
  · rfl

theorem Input.ofCode_eq_none {n : Nat} (h : 4 ≤ n) : Input.ofCode n = none := by
  unfold Input.ofCode
  split <;> first | omega | rfl

theorem takeMuxCell_reported {c : Cell} {s : State}
    (h : ∀ x k, stationOf c.station = some x → chainAt s.setup x = some k →
      s.port.reportedChains.get k = true ∨ 4 ≤ c.payload[0].toNat) :
    takeMuxCell c s = s := by
  unfold takeMuxCell
  split
  · rename_i k i hk hi
    obtain ⟨x, hst, hx⟩ := Option.bind_eq_some_iff.1 hk
    rcases h x k hst hx with reported | outside
    · rw [if_pos reported]
    · rw [Input.ofCode_eq_none outside] at hi; cases hi
  · rfl

/-! ### HEAD (R5, R17, R43) -/

/-- R5: a valid outbound HEAD is taken in every state of the monitor. -/
theorem receive_head {s : State} (hp : s.port.powered = true) (hh : s.port.resetHeld = false) (st : Byte) (m : Payload) :
    receive .outbound (Cell.make .head st m) s =
      State.judged { takeHead m s with
        port := (takeHead m s).port.leaves .outbound (some (Cell.make .head st m)) } := by
  unfold receive passage takeCell
  rw [if_pos hp]
  simp only [hh, make_valid, make_kind?, Bool.not_true, Bool.or_false, Bool.false_eq_true, if_false]
  split <;> rfl

theorem markResync_frame (e : Env) (r : Run) (p : Fin 8) :
    markResync e r p = { r with motions := (markResync e r p).motions } := by
  unfold markResync
  split <;> rfl

theorem markResync_get (e : Env) (r : Run) (p q : Fin 8) :
    (markResync e r p).motions.get q =
      if p = q ∧ definedPos e.setup q = true ∧ (r.motions.get q).lastCount.isSome = true then
        { r.motions.get q with resyncDue := true }
      else r.motions.get q := by
  unfold markResync
  split
  · rename_i due
    rw [Run.modMotion_get]
    by_cases hp : p = q
    · subst hp
      rw [if_pos rfl, if_pos ⟨rfl, Bool.and_eq_true_iff.1 due⟩]
    · rw [if_neg hp, if_neg fun h => hp h.1]
  · rename_i undue
    rw [if_neg]
    rintro ⟨rfl, due⟩
    exact undue (Bool.and_eq_true_iff.2 due)

/-- R43: each position is marked in its turn, and a mark changes neither what is defined nor a last frame count. -/
theorem foldl_markResync (e : Env) (l : List (Fin 8)) (r : Run) :
    l.foldl (markResync e) r = { r with motions := (l.foldl (markResync e) r).motions }
      ∧ ∀ q, (l.foldl (markResync e) r).motions.get q =
        if q ∈ l ∧ definedPos e.setup q = true ∧ (r.motions.get q).lastCount.isSome = true then
          { r.motions.get q with resyncDue := true }
        else r.motions.get q := by
  induction l generalizing r with
  | nil => exact ⟨rfl, fun q => (if_neg fun h => List.not_mem_nil h.1).symm⟩
  | cons p l ih =>
    obtain ⟨frame, marked⟩ := ih (markResync e r p)
    refine ⟨?_, fun q => ?_⟩
    · rw [List.foldl_cons, frame, markResync_frame e r p]
    · rw [List.foldl_cons, marked q, markResync_get]
      by_cases hq : p = q
      · subst hq
        by_cases due : definedPos e.setup p = true ∧ (r.motions.get p).lastCount.isSome = true <;> simp [due]
      · have : q ∈ p :: l ↔ q ∈ l := by simp [Ne.symm hq]
        simp [hq, this]

theorem regain_frame (e : Env) (r : Run) : regain e r = { r with motions := (regain e r).motions } :=
  (foldl_markResync e allPositions r).1

theorem regain_get (e : Env) (r : Run) (q : Fin 8) :
    (regain e r).motions.get q =
      if definedPos e.setup q = true ∧ (r.motions.get q).lastCount.isSome = true then
        { r.motions.get q with resyncDue := true }
      else r.motions.get q := by
  unfold regain
  rw [(foldl_markResync e allPositions r).2 q]
  simp only [mem_allPositions, true_and]

/-! ### The silence timer (R16) -/

theorem exec_silence_acting {s : State} (h : s.acting) : exec .silenceTimerExpiry s = .next (loseLoop s) := by
  show Host.Outcome.next (silenceExpires s) = _
  unfold silenceExpires
  rw [if_pos (show s.port.acting = true from h)]

theorem clockCycle_counts {s : State} (h : s.acting) {n : Nat} (hn : s.port.silence = some n) :
    clockCycle s =
      if 100000 ≤ n + 1 then loseLoop s else { s with port := { s.port with silence := some (n + 1) } } := by
  unfold clockCycle
  rw [if_pos (show s.port.acting = true from h), hn]
  rfl

theorem step_idle {s : State} (h : s.pending = []) : step s = .next (clockCycle s) := by
  unfold step
  rw [h]

/-- R160: a LOST part that is supplied and not held asserts the contact, whatever the slots. -/
theorem loseLoop_port {s : State} (h : s.acting) :
    (loseLoop s).port = { s.port with monitor := .lost, silence := none, contact := true } := by
  obtain ⟨powered, held, _⟩ := acting_iff.1 h
  unfold loseLoop State.judged
  dsimp only
  congr 1
  simp [contactAsserted, powered, held]

theorem raise_frame (e : Env) (k : Fin 82) (v : Option Int) (x : Option (Fin 16 × Severity)) (r : Run) :
    raise e k v x r = { r with slots := (raise e k v x r).slots } := by
  unfold raise
  split <;> rfl

/-! ### Resets (R4, R18, R171; 10, section 10.5) -/

theorem contactAsserted_restarted {p : LoopPort} (hm : p.monitor = .searching) (r : Run) :
    contactAsserted p r.warmReset = false := by
  have quiet : majorStands r.warmReset = false := by
    unfold majorStands
    rw [List.any_eq_false]
    intro k _
    have slot : r.warmReset.slots.get k = Slot.cleared := Vector.getElem_replicate k.isLt
    rw [slot]
    simp [Slot.cleared]
  simp [contactAsserted, quiet, hm]

/-- R18, R171: what a full reset keeps: the supply, RESET held or not, the cells on the lines, the free values' own
fields and the commands that wait. -/
theorem fullReset_eq (w : BitVec 6) (s : State) :
    fullReset w s = { State.reset with
      port := { State.reset.port with
        powered := s.port.powered, resetHeld := s.port.resetHeld, straps := w, own := w
        loopOut := s.port.loopOut, loopRet := s.port.loopRet }
      run := { State.reset.run with schedule := s.run.schedule, choices := s.run.choices }
      pending := s.pending } := rfl

/-- R160: after a full reset the contact is open already. -/
theorem judged_fullReset (w : BitVec 6) (s : State) : (fullReset w s).judged = fullReset w s := by
  refine judged_of_right ?_
  show false = contactAsserted (s.port.fullReset w) s.run.warmReset
  rw [contactAsserted_restarted rfl]

/-! ### What a warm reset leaves of the run-time state (R20, R46, R79) -/

theorem warmReset_lamp (r : Run) (p : Fin 8) : r.warmReset.lamps.get p = LampRec.restarted :=
  Vector.getElem_replicate p.isLt

theorem warmReset_scan (r : Run) (p : Fin 8) : r.warmReset.scans.get p = ScanRec.restarted :=
  Vector.getElem_replicate p.isLt

theorem warmReset_motion (r : Run) (p : Fin 8) : r.warmReset.motions.get p = MotionRec.restarted :=
  Vector.getElem_replicate p.isLt

theorem warmReset_countsInRange (r : Run) : CountsInRange r.warmReset := by
  intro p
  rw [warmReset_motion, warmReset_scan]
  decide

theorem warmReset_cursorsInRange (su : Setup) (r : Run) : CursorsInRange su r.warmReset := by
  intro p
  rw [warmReset_scan]
  exact Nat.zero_le _

theorem warmReset_strikesSound (r : Run) : StrikesSound r.warmReset := by
  refine ⟨.nil, fun p => ?_⟩
  have queue : r.warmReset.strikeQueue = [] := rfl
  have gate : r.warmReset.gate = .free := rfl
  rw [warmReset_lamp, queue, gate]
  simp [LampRec.restarted]

end Sys2Proof.Machine

namespace Sys2Proof.Proofs

open Sys2Proof.Machine

/-- Settles O12: each row is its cell arriving, and `receive` forwards it (R1, R4, R15). -/
theorem cellsForwardedWhole : Obligations.CellsForwardedWhole := by
  refine fun s hp hr => ⟨fun l c invalid => ?_, fun l c unlocked hh => ?_, fun i l c arrived => ⟨fun held => ?_,
    fun unlocked hh => ?_⟩⟩
  · rw [exec_of_arrives rfl, receive_ignored hp hr l c (.inr invalid)]
  · rw [exec_of_arrives rfl, receive_unlocked hp hr l c unlocked hh]
  · rw [exec_of_arrives arrived, receive_ignored hp hr l c (.inl held)]
    exact ⟨rfl, contact_of_held hr held⟩
  · rw [exec_of_arrives arrived, receive_unlocked hp hr l c unlocked hh]

/-- Settles O15: in each case the block finds nothing of its own in the cell. -/
theorem notForThePartForwarded : Obligations.NotForThePartForwarded := by
  refine fun st m s ha hr => ⟨fun elsewhere => ?_, fun position select => ?_, fun reported => ?_, fun reported => ?_⟩
  · rw [exec_of_arrives rfl, receive_forward ha hr .outbound .manage st m (takeManage_elsewhere m elsewhere)]
  · have unsuited : takeOrder (Cell.make .order st m) s = forward (Cell.make .order st m) s := by
      unfold takeOrder
      rw [make_station, make_payload, deskOrder_unsuited position select]
    rw [exec_of_arrives rfl, receive_forward ha hr .outbound .order st m unsuited]
  · have heard : takeReturn .state (Cell.make .state st m) s = forward (Cell.make .state st m) s := by
      show forward _ (takeState _ s) = _
      rw [takeState_reported (by simpa using reported)]
    rw [exec_of_arrives rfl, receive_forward ha hr .ret .state st m heard]
  · have heard : takeReturn .mux (Cell.make .mux st m) s = forward (Cell.make .mux st m) s := by
      show forward _ (takeMuxCell _ s) = _
      rw [takeMuxCell_reported (by simpa using reported)]
    rw [exec_of_arrives rfl, receive_forward ha hr .ret .mux st m heard]

/-- Settles O16: R5, and from LOST the regain event (R17, R43). -/
theorem headLocksTheLoop : Obligations.HeadLocksTheLoop := by
  refine fun st m s hp hh hr => ⟨fun unlost => ?_, fun lost => ?_⟩
  · rw [exec_of_arrives rfl, receive_head hp hh]
    unfold takeHead
    rw [if_neg unlost]
    refine congrArg _ (shows_of_right (s := { s with port := s.port.takeHead m[0] }) .outbound _ ?_)
    show s.port.contact = contactAsserted (s.port.takeHead m[0]) s.run
    rw [show s.port.contact = contactAsserted s.port s.run from hr]
    have unlost' : (s.port.monitor == .lost) = false := by simpa using unlost
    simp only [contactAsserted, LoopPort.takeHead, unlost']
    rfl
  · rw [exec_of_arrives rfl, receive_head hp hh]
    unfold takeHead
    rw [if_pos lost]
    exact ⟨_, rfl, rfl, judged_contactRight _, rfl, rfl, regain_frame .., fun p => regain_get ..⟩

/-- Settles O2: the row and the 100,000th cycle are the one operation `loseLoop`. -/
theorem silenceLosesTheLoop : Obligations.SilenceLosesTheLoop := by
  refine fun s => ⟨fun ha => ?_, fun idle => ⟨fun still => ?_, fun n ha hn early => ?_, fun n ha hn late => ?_⟩⟩
  · refine ⟨loseLoop s, exec_silence_acting ha, loseLoop_port ha, rfl, rfl, raise_frame .., ?_, fun k hk => ?_⟩
    · exact raisedIn_of (full := true) (obs := true) (r1 := s.run) rfl .refl
    · show (raise s.env slotLoop none none s.run).slots.get k = _
      rw [raise_slot, if_neg fun h => hk h.1.symm]
  · rw [step_idle idle]
    unfold clockCycle
    rw [still]
    rfl
  · rw [step_idle idle, clockCycle_counts ha hn, if_neg (by omega)]
  · rw [step_idle idle, clockCycle_counts ha hn, if_pos late, exec_silence_acting ha]

/-- Settles O17: a full reset leaves no slot raised and the monitor SEARCHING, so the contact is open. -/
theorem fullResetLeaves : Obligations.FullResetLeaves := by
  refine fun w s => ⟨fun hp => ?_, ?_⟩
  · show Host.Outcome.next (resetReleased w s) = _
    unfold resetReleased
    dsimp only
    rw [if_pos hp, judged_fullReset, fullReset_eq]
    dsimp only
    rw [hp]
    rfl
  · show Host.Outcome.next (powerOn w s) = _
    unfold powerOn
    rw [judged_fullReset, fullReset_eq]
    rfl

/-- Settles O18: RESET held, or the supply lost, opens the contact (R4). -/
theorem resetAndSupplyOpenContact : Obligations.ResetAndSupplyOpenContact := by
  refine fun s => ⟨?_, ?_⟩
  · show Host.Outcome.next (resetAsserted s) = _
    unfold resetAsserted State.judged
    simp [contactAsserted]
  · show Host.Outcome.next (lossOfSupply s) = _
    unfold lossOfSupply
    rw [judged_fullReset, fullReset_eq]

/-- Settles O3: every value is read off the reset state. -/
theorem resetValues : Obligations.ResetValues := by
  have position : ∀ p : Fin 8, State.reset.port.reportedPositions.get p = false
      ∧ State.reset.setup.positions.get p = none
      ∧ State.reset.run.motions.get p = MotionRec.restarted ∧ State.reset.run.lamps.get p = LampRec.restarted
      ∧ State.reset.run.scans.get p = ScanRec.restarted ∧ State.reset.setup.reels.get p = Reel.initial := by decide
  have slot : ∀ k : Fin 82, State.reset.run.slots.get k = Slot.cleared := fun k => Vector.getElem_replicate k.isLt
  refine ⟨rfl, rfl, rfl, fun p => ?_, by decide, by decide, by decide, fun k => ?_, by decide, rfl, rfl, rfl, rfl, rfl, rfl,
    rfl, rfl, rfl, ?_, rfl, .nil, Nat.zero_le _, warmReset_stackSound Run.restarted, initial_pagesSingle,
    initial_stationsSingle _, initial_portsSingle, initial_settingsInRange, warmReset_countsInRange Run.restarted,
    warmReset_cursorsInRange Setup.initial Run.restarted, warmReset_strikesSound Run.restarted⟩
  · obtain ⟨reported, defined, motion, lamp, scan, reel⟩ := position p
    rw [motion, lamp, scan, reel]
    exact ⟨reported, defined, rfl, rfl, rfl, rfl, rfl, rfl, rfl, rfl⟩
  · rw [slot]; exact ⟨rfl, rfl⟩
  · exact (contactAsserted_restarted (p := LoopPort.initial) rfl Run.restarted).symm

end Sys2Proof.Proofs
end

section
/-! PROOFS. SET PARAM and SET SCREEN (O22). -/

namespace Sys2Proof.Machine

/-! ### The octets of a request's numbers (11) -/

theorem read16_hi_lo (v : BitVec 16) : read16 (hi16 v) (lo16 v) = v := by
  have octets : hi16 v ++ lo16 v = v := by
    unfold hi16 lo16
    exact BitVec.extractLsb'_append_extractLsb'_eq_extractLsb' (by omega) |>.trans (by simp)
  exact octets

/-! ### A request row's REPLY, by its code -/

/-- `request_refused` for a row whose request code is a numeral. -/
theorem coded_refused {s : State} (ha : s.acting) (hr : s.contactRight) {m : Payload} {n : Nat} {tag : Byte}
    {why : Result} (answered : answerManage m s = refuse why s) (code : m[0].toNat = n := by rfl)
    (tagged : m[1] = tag := by rfl) (owned : 1 ≤ n ∧ n ≤ 24 := by decide) :
    request m s = .next (s.replies n tag why.code (Vector.replicate 10 0)) := by
  subst code tagged
  exact request_refused ha hr m why owned.1 owned.2 answered

/-- `request_done` for such a row. -/
theorem coded_done {s u : State} (ha : s.acting) (hr : u.contactRight) {m : Payload} {n : Nat} {tag : Byte}
    {d : Vector Byte 10} (answered : answerManage m s = answerDone d u) (own : u.port.own = s.port.own := by rfl)
    (sweep : u.port.sweep = s.port.sweep := by rfl) (code : m[0].toNat = n := by rfl) (tagged : m[1] = tag := by rfl)
    (owned : 1 ≤ n ∧ n ≤ 24 := by decide) :
    request m s = .next (u.replies n tag 0 d) := by
  subst code tagged
  exact request_done ha hr m d owned.1 owned.2 answered own sweep

/-! ### SET PARAM (R166) -/

/-- The table of 10.3: code, least value, greatest value, and the parameters with n written under the code. -/
def Params.writes (p : Params) (n : Nat) : List (Nat × Nat × Nat × Params) :=
  [(1, 0, 50, { p with staggerGap := n }), (2, 10, 250, { p with strikeLimit := n }),
    (3, 0, 50, { p with lampSettle := n }), (4, 10, 250, { p with runupLimit := n }),
    (5, 25, 500, { p with stopLimit := n }), (6, 10, 500, { p with dwellLimit := n }),
    (7, 3, 8, { p with motionWindow := n }), (8, 2, 6, { p with markLength := n }),
    (9, 2, 12, { p with markGap := n })]

theorem Params.mem_writes {p : Params} {n : Nat} {x : Nat × Nat × Nat × Params} (h : x ∈ p.writes n) :
    paramRange x.1 = some (x.2.1, x.2.2.1) ∧ p.write x.1 n = x.2.2.2 := by
  simp only [Params.writes, List.mem_cons, List.not_mem_nil, or_false] at h
  rcases h with rfl | rfl | rfl | rfl | rfl | rfl | rfl | rfl | rfl <;> exact ⟨rfl, rfl⟩

theorem exec_setParam (tag code : Byte) (v : BitVec 16) (s : State) :
    exec (.setParam tag code v) s = request (payload13 22 tag code (hi16 v) (lo16 v)) s := rfl

theorem answerManage_setParam (tag code : Byte) (v : BitVec 16) (s : State) :
    answerManage (payload13 22 tag code (hi16 v) (lo16 v)) s = reqSetParam code v.toNat s := by
  show reqSetParam code (read16 (hi16 v) (lo16 v)).toNat s = _
  rw [read16_hi_lo]

theorem reqSetParam_inside {code : Byte} {v low high : Nat} (s : State) (range : paramRange code.toNat = some (low, high))
    (inside : low ≤ v ∧ v ≤ high) :
    reqSetParam code v s = answerDone (paramView code v)
      { s with setup := { s.setup with params := s.setup.params.write code.toNat v } } := by
  unfold reqSetParam
  rw [range]
  exact if_neg (by omega)

theorem reqSetParam_outside {code : Byte} {v low high : Nat} (s : State)
    (range : paramRange code.toNat = some (low, high)) (outside : v < low ∨ high < v) :
    reqSetParam code v s = refuse .range s := by
  unfold reqSetParam
  rw [range]
  exact if_pos outside

theorem reqSetParam_unlisted {code : Byte} (v : Nat) (s : State) (unlisted : code.toNat < 1 ∨ 9 < code.toNat) :
    reqSetParam code v s = refuse .range s := by
  unfold reqSetParam
  rw [paramRange_eq_none.2 unlisted]

theorem exec_setParam_done {s : State} (ha : s.acting) (hr : s.contactRight) (tag : Byte) {code : Byte} {v : BitVec 16}
    {low high : Nat} (range : paramRange code.toNat = some (low, high)) (inside : low ≤ v.toNat ∧ v.toNat ≤ high) :
    exec (.setParam tag code v) s =
      .next ({ s with setup := { s.setup with params := s.setup.params.write code.toNat v.toNat } }.replies 22 tag 0
        (paramView code v.toNat)) := by
  have answered := (answerManage_setParam tag code v s).trans (reqSetParam_inside s range inside)
  exact coded_done (u := { s with setup := { s.setup with params := s.setup.params.write code.toNat v.toNat } })
    ha hr answered

theorem exec_setParam_refused {s : State} (ha : s.acting) (hr : s.contactRight) (tag : Byte) {code : Byte}
    {v : BitVec 16} (refused : reqSetParam code v.toNat s = refuse .range s) :
    exec (.setParam tag code v) s = .next (s.replies 22 tag 2 (Vector.replicate 10 0)) :=
  coded_refused ha hr ((answerManage_setParam tag code v s).trans refused)

/-! ### SET SCREEN (R136) -/

theorem Verdict.ofOctet_of_code {b : Byte} {v : Verdict} (h : b.toNat = v.code) : Verdict.ofOctet b = some v := by
  unfold Verdict.ofOctet
  cases v <;> rw [h] <;> rfl

theorem Verdict.ofOctet_eq_none {b : Byte} (h : 2 < b.toNat) : Verdict.ofOctet b = none := by
  unfold Verdict.ofOctet
  split <;> first | omega | rfl

theorem readVerdicts_of_codes {a b c d : Byte} {w x y z : Verdict} (ha : a.toNat = w.code) (hb : b.toNat = x.code)
    (hc : c.toNat = y.code) (hd : d.toNat = z.code) : readVerdicts a b c d = some #v[w, x, y, z] := by
  unfold readVerdicts
  rw [Verdict.ofOctet_of_code ha, Verdict.ofOctet_of_code hb, Verdict.ofOctet_of_code hc, Verdict.ofOctet_of_code hd]

theorem readVerdicts_eq_none {a b c d : Byte} (h : 2 < a.toNat ∨ 2 < b.toNat ∨ 2 < c.toNat ∨ 2 < d.toNat) :
    readVerdicts a b c d = none := by
  unfold readVerdicts
  split
  · rename_i ha hb hc hd
    rcases h with h | h | h | h <;> rw [Verdict.ofOctet_eq_none h] at * <;> contradiction
  · rfl

theorem exec_setScreen (tag kind a b c d : Byte) (s : State) :
    exec (.setScreen tag kind a b c d) s = request (payload13 14 tag kind a b c d) s := rfl

theorem answerManage_setScreen (tag kind a b c d : Byte) (s : State) :
    answerManage (payload13 14 tag kind a b c d) s = reqSetScreen kind a b c d s := rfl

theorem reqSetScreen_done {kind a b c d : Byte} {i : Fin 7} {row : Vector Verdict 4} (s : State)
    (hk : screenRow kind = some i) (hv : readVerdicts a b c d = some row) :
    reqSetScreen kind a b c d s =
      answerDone data10 { s with setup := { s.setup with screen := s.setup.screen.set i row } } := by
  unfold reqSetScreen
  rw [hk, hv]

theorem reqSetScreen_refused {kind a b c d : Byte} (s : State)
    (h : screenRow kind = none ∨ readVerdicts a b c d = none) : reqSetScreen kind a b c d s = refuse .range s := by
  unfold reqSetScreen
  split
  · rename_i hk hv
    rcases h with h | h
    · rw [h] at hk; cases hk
    · rw [h] at hv; cases hv
  · rfl

end Sys2Proof.Machine

namespace Sys2Proof.Proofs

open Sys2Proof.Machine

/-- Settles O22: the table of 10.3 gives the range and the field of each code; a row of the screen table takes four
verdicts or none. -/
theorem paramsAndScreenWritten : Obligations.ParamsAndScreenWritten := by
  refine fun tag s ha hr => ⟨fun code v => ⟨fun x hx hc => ⟨fun inside => ?_, fun outside => ?_⟩, fun unlisted => ?_⟩,
    fun kind a b c d => ⟨fun i w x y z hk hw hx hy hz => ?_, fun refused => ?_⟩⟩
  · obtain ⟨range, written⟩ := Params.mem_writes (p := s.setup.params) (n := v.toNat) hx
    rw [← hc] at range written
    rw [exec_setParam_done ha hr tag range inside, written, paramView_eq]
  · obtain ⟨range, _⟩ := Params.mem_writes (p := s.setup.params) (n := v.toNat) hx
    rw [← hc] at range
    exact exec_setParam_refused ha hr tag (reqSetParam_outside s range outside)
  · exact exec_setParam_refused ha hr tag (reqSetParam_unlisted _ s unlisted)
  · have answered := (answerManage_setScreen tag kind a b c d s).trans
      (reqSetScreen_done s (screenRow_eq_some.2 hk) (readVerdicts_of_codes hw hx hy hz))
    exact coded_done (u := { s with setup := { s.setup with screen := s.setup.screen.set i #v[w, x, y, z] } })
      ha hr answered
  · have none_read : screenRow kind = none ∨ readVerdicts a b c d = none := by
      rcases refused with low | high | verdict
      · exact .inl (screenRow_eq_none.2 (.inl low))
      · exact .inl (screenRow_eq_none.2 (.inr high))
      · exact .inr (readVerdicts_eq_none verdict)
    exact coded_refused ha hr ((answerManage_setScreen tag kind a b c d s).trans (reqSetScreen_refused s none_read))

end Sys2Proof.Proofs
end

section
/-! PROOFS. The operations of the blocks that touch neither a scanning record nor a lamp, the strike queue or the gate
(for O9): what a cue list and the strike gate are judged by stays as it was. -/

namespace Sys2Proof.Machine

/-- The scanning records, the lamp records, the strike queue and the gate are as they were. -/
structure Calm (r0 r : Run) : Prop where
  scans : r.scans = r0.scans
  lamps : r.lamps = r0.lamps
  queue : r.strikeQueue = r0.strikeQueue
  gate : r.gate = r0.gate

theorem Calm.refl (r : Run) : Calm r r := ⟨rfl, rfl, rfl, rfl⟩

theorem Calm.trans {r0 r r' : Run} (h : Calm r0 r) (g : Calm r r') : Calm r0 r' :=
  ⟨g.scans.trans h.scans, g.lamps.trans h.lamps, g.queue.trans h.queue, g.gate.trans h.gate⟩

section
variable {e : Env} {r0 r : Run}

theorem foldl_calm {α : Type} {f : Run → α → Run} (hf : ∀ r a, Calm r0 r → Calm r0 (f r a)) (l : List α)
    (h : Calm r0 r) : Calm r0 (l.foldl f r) := by
  induction l generalizing r with
  | nil => exact h
  | cons a l ih => exact ih (hf r a h)

/-! ### Single updates -/

theorem Calm.modMotion (p : Fin 8) (f : MotionRec → MotionRec) (h : Calm r0 r) : Calm r0 (r.modMotion p f) :=
  h.trans ⟨rfl, rfl, rfl, rfl⟩
theorem Calm.modChain (c : Fin 4) (f : ChainRec → ChainRec) (h : Calm r0 r) : Calm r0 (r.modChain c f) :=
  h.trans ⟨rfl, rfl, rfl, rfl⟩
theorem Calm.setRunoutRaised (p : Fin 8) (b : Bool) (h : Calm r0 r) : Calm r0 (r.setRunoutRaised p b) :=
  h.trans ⟨rfl, rfl, rfl, rfl⟩
theorem Calm.setTailStopped (p : Fin 8) (b : Bool) (h : Calm r0 r) : Calm r0 (r.setTailStopped p b) :=
  h.trans ⟨rfl, rfl, rfl, rfl⟩
theorem Calm.hand (x : Handoff) (h : Calm r0 r) : Calm r0 (r.hand x) := h.trans ⟨rfl, rfl, rfl, rfl⟩
theorem Calm.handAll (hs : List Handoff) (h : Calm r0 r) : Calm r0 (r.handAll hs) := h.trans ⟨rfl, rfl, rfl, rfl⟩
theorem Calm.orders (q : List OrderEntry) (h : Calm r0 r) : Calm r0 { r with orders := q } :=
  h.trans ⟨rfl, rfl, rfl, rfl⟩
theorem Calm.roles (a : Vector Role 8) (b : Vector Bool 8) (h : Calm r0 r) : Calm r0 { r with roles := a, onAir := b } :=
  h.trans ⟨rfl, rfl, rfl, rfl⟩
theorem Calm.counters (cs : Vector (Vector Nat 8) 16) (h : Calm r0 r) : Calm r0 { r with counters := cs } :=
  h.trans ⟨rfl, rfl, rfl, rfl⟩

theorem raise_calm (k : Fin 82) (v : Option Int) (x : Option (Fin 16 × Severity)) (h : Calm r0 r) :
    Calm r0 (raise e k v x r) := by
  rw [raise_frame]
  exact h.trans ⟨rfl, rfl, rfl, rfl⟩

theorem raiseChain_calm (k : Fin 82) (h : Calm r0 r) : Calm r0 (raiseChain e k r) := raise_calm _ _ _ h

theorem raisePosition_calm (k : Fin 82) (p : Fin 8) (h : Calm r0 r) : Calm r0 (raisePosition e k p r) :=
  raise_calm _ _ _ h

theorem queueNotice_calm (b : NoticeBody) (h : Calm r0 r) : Calm r0 (queueNotice e b r) := by
  unfold queueNotice
  split
  · exact h.trans ⟨rfl, rfl, rfl, rfl⟩
  · exact raiseChain_calm _ h

theorem queueFor_calm (p : Fin 8) (o : Order) (h : Calm r0 r) : Calm r0 (queueFor e p o r) := by
  unfold queueFor
  split
  · exact h.orders _
  · exact h

/-! ### The Chain Unit -/

theorem derive_calm (c : Fin 4) (h : Calm r0 r) : Calm r0 (derive e c r) := h.modChain ..

theorem switchTo_calm (c : Fin 4) (i : Input) (k : SwitchKind) (keep : Bool) (h : Calm r0 r) :
    Calm r0 (switchTo e c i k keep r) := by
  refine Calm.modChain _ _ ?_
  unfold queueForChain
  split
  · exact h.orders _
  · exact h

theorem switchToFallback_calm (c : Fin 4) (keep : Bool) (h : Calm r0 r) : Calm r0 (switchToFallback e c keep r) :=
  switchTo_calm _ _ _ _ h

theorem raiseRunout_calm (c : Fin 4) (p : Fin 8) (h : Calm r0 r) : Calm r0 (raiseRunout e c p r) := by
  unfold raiseRunout
  split
  · exact h
  · exact (raiseChain_calm _ h).setRunoutRaised ..

theorem guardRunout_calm (keep : Bool) (c : Fin 4) (p : Fin 8) (h : Calm r0 r) :
    Calm r0 (guardRunout e keep c p r) := by
  have raised : Calm r0 (raiseRunout e c p r) := raiseRunout_calm _ _ h
  unfold guardRunout
  split
  case h_1 | h_2 =>
    dsimp only
    split
    · exact switchToFallback_calm _ _ raised
    · exact raised
  case h_3 => exact raised
  all_goals exact h

theorem tailStop_calm (c : Fin 4) (x : Port) (p : Fin 8) (h : Calm r0 r) : Calm r0 (tailStop e c x p r) := by
  unfold tailStop
  split
  · exact (queueFor_calm _ _ (queueFor_calm _ _ h)).setTailStopped ..
  · exact h

theorem evaluateRunout_calm (keep : Bool) (p : Fin 8) (h : Calm r0 r) : Calm r0 (evaluateRunout e keep p r) := by
  unfold evaluateRunout
  split
  · exact h
  · split
    · exact (h.setRunoutRaised ..).setTailStopped ..
    · split
      · exact guardRunout_calm _ _ _ h
      · exact tailStop_calm _ _ _ h

theorem evaluatePorts_calm (keep : Bool) (c : Fin 4) (h : Calm r0 r) : Calm r0 (evaluatePorts e keep c r) :=
  foldl_calm (fun _ p h => evaluateRunout_calm keep p h) _ h

theorem evaluateReturn_calm (keep : Bool) (c : Fin 4) (back : Run) (h : Calm r0 r) :
    Calm r0 (evaluateReturn e keep c back r) := by
  unfold evaluateReturn
  split
  · exact evaluatePorts_calm _ _ h
  · exact h

theorem holdExpiryRule_calm (c : Fin 4) (p : Fin 8) (k : HoldKind) (h : Calm r0 r) :
    Calm r0 (holdExpiryRule e c p k r) := by
  have raised : Calm r0 (raiseChain e (slotChangeFailed c) r) := raiseChain_calm _ h
  unfold holdExpiryRule
  dsimp only
  split
  · exact derive_calm _ raised
  · split
    · exact switchToFallback_calm _ _ raised
    · exact evaluateReturn_calm _ _ _ (derive_calm _ raised)

theorem changeover_calm (c : Fin 4) (p q : Fin 8) (o : ChangeoverFrom) (keep : Bool) (h : Calm r0 r) :
    Calm r0 (changeover e c p q o keep r) := by
  unfold changeover
  split
  · exact h
  · split
    · split
      · exact switchTo_calm _ _ _ _ h
      · split
        · exact holdExpiryRule_calm _ _ _ h
        · exact h
    · exact h

theorem plannedCaption_calm (c : Fin 4) (h : Calm r0 r) : Calm r0 (plannedCaption e c r) := by
  unfold plannedCaption
  split
  · exact switchTo_calm _ _ _ _ h
  · exact h

theorem clearHold_calm (c : Fin 4) (h : Calm r0 r) : Calm r0 (clearHold e c r) := h.modChain ..

theorem endHolding_calm (c : Fin 4) (p : Fin 8) (k : HoldKind) (how : HoldEnd) (h : Calm r0 r) :
    Calm r0 (endHolding e c p k how r) := by
  have derived : Calm r0 (derive e c (clearHold e c r)) := derive_calm _ (clearHold_calm _ h)
  unfold endHolding
  cases how
  case late q => exact evaluateReturn_calm _ _ _ (changeover_calm _ _ _ _ _ derived)
  case heldOut | fault => exact holdExpiryRule_calm _ _ _ (clearHold_calm _ h)
  all_goals exact evaluateReturn_calm _ _ _ derived

theorem holdEnd_calm (c : Fin 4) (p : Fin 8) (how : HoldEnd) (h : Calm r0 r) : Calm r0 (holdEnd e c p how r) := by
  unfold holdEnd
  split
  · exact endHolding_calm _ _ _ _ h
  · exact changeover_calm _ _ _ _ _ h
  · exact h

theorem holdFault_calm (c : Fin 4) (p : Fin 8) (k : HoldKind) (h : Calm r0 r) : Calm r0 (holdFault e c p k r) := by
  unfold holdFault
  split
  · exact holdExpiryRule_calm _ _ _ (h.modChain ..)
  · exact h

theorem overtakeSwitch_calm (c : Fin 4) (x : Port) (h : Calm r0 r) : Calm r0 (overtakeSwitch e c x r) := by
  unfold overtakeSwitch
  split
  · dsimp only
    split
    · exact (h.orders _).modChain ..
    · exact h.modChain ..
  · exact h

theorem recordRole_calm (p : Fin 8) (h : Calm r0 r) : Calm r0 (recordRole e r p) := h.roles ..

theorem rederive_calm (c : Fin 4) (h : Calm r0 r) : Calm r0 (rederive e c r) := by
  unfold rederive
  split
  · exact derive_calm _ h
  · exact h

theorem clearSwitch_calm (c : Fin 4) (h : Calm r0 r) : Calm r0 (clearSwitch c r) := h.modChain ..

theorem setObserved_calm (c : Fin 4) (i : Input) (h : Calm r0 r) : Calm r0 (setObserved c i r) := h.modChain ..

theorem withdrawSelect_calm (c : Fin 4) (h : Calm r0 r) : Calm r0 (withdrawSelect e c r) := by
  unfold withdrawSelect
  split
  · split
    · exact h.orders _
    · exact h
  · exact h

theorem selectInserted_calm (c : Fin 4) (h : Calm r0 r) : Calm r0 (selectInserted c r) := by
  unfold selectInserted
  dsimp only
  split
  · exact h.modChain ..
  · exact h

theorem deskSelect_calm (c : Fin 4) (i : Input) (h : Calm r0 r) : Calm r0 (deskSelect e c i r) := by
  unfold deskSelect
  dsimp only
  split
  · exact (clearHold_calm _ (h.handAll _)).modChain ..
  · exact h.modChain ..

theorem countHold_calm (c : Fin 4) (h : Calm r0 r) : Calm r0 (countHold e c r) := h.modChain ..

theorem countSwitch_calm (c : Fin 4) (h : Calm r0 r) : Calm r0 (countSwitch c r) := h.modChain ..

theorem expireHold_calm (c : Fin 4) (h : Calm r0 r) : Calm r0 (expireHold c r) := by
  unfold expireHold
  split
  · split
    · exact h.hand _
    · exact h
  · exact h

/-! ### The Motion Tracker -/

theorem handChange_calm (p : Fin 8) (moved : Bool) (h : Calm r0 r) : Calm r0 (handChange e p moved r) := h.handAll _

theorem handIfChanged_calm (p : Fin 8) (m : MotionRec) (h : Calm r0 r) : Calm r0 (handIfChanged e p m r) := by
  unfold handIfChanged
  dsimp only
  split
  · exact handChange_calm _ _ h
  · exact h

theorem loseReference_calm (p : Fin 8) (h : Calm r0 r) : Calm r0 (loseReference p r) := by
  unfold loseReference
  split
  · exact (h.modMotion ..).handAll _
  · exact h

theorem unreference_calm (p : Fin 8) (w : UnrefReason) (h : Calm r0 r) : Calm r0 (unreference e p w r) := by
  unfold unreference
  dsimp only
  split
  · exact queueNotice_calm _ (loseReference_calm _ h)
  · exact h

theorem enterBroken_calm (p : Fin 8) (h : Calm r0 r) : Calm r0 (enterBroken e p r) :=
  (unreference_calm _ _ (queueFor_calm _ _ (queueFor_calm _ _ (raisePosition_calm _ _ (h.modMotion ..))))).hand _

theorem unorderedStop_calm (p : Fin 8) (h : Calm r0 r) : Calm r0 (unorderedStop e p r) :=
  (raisePosition_calm _ _ (h.modMotion ..)).hand _

theorem gapStep_calm (p : Fin 8) (h : Calm r0 r) : Calm r0 (gapStep e p r) := by
  unfold gapStep
  dsimp only
  split
  · split
    · exact queueNotice_calm _ (h.modMotion ..)
    · exact h.modMotion ..
  · exact h.modMotion ..

theorem countStep_calm (p : Fin 8) (w : BitVec 16) (k : Count) (h : Calm r0 r) : Calm r0 (countStep e p w k r) := by
  unfold countStep
  dsimp only
  split
  · exact h.modMotion ..
  · exact h.modMotion ..
  · exact (h.modMotion ..).modMotion ..
  · exact unreference_calm _ _ (h.modMotion ..)

theorem motionStep_calm (p : Fin 8) (now : Byte) (k : Count) (h : Calm r0 r) : Calm r0 (motionStep e p now k r) := by
  unfold motionStep
  dsimp only
  split
  · split
    · exact h.modMotion ..
    · exact h
  · split
    · exact h.modMotion ..
    · exact h
  · unfold reportInRunup
    split
    · exact enterBroken_calm _ h
    · split
      · exact unorderedStop_calm _ h
      · split
        · exact h.modMotion ..
        · exact h
  · unfold reportInLocked
    split
    · exact enterBroken_calm _ h
    · split
      · exact unorderedStop_calm _ h
      · split
        · exact h.modMotion ..
        · exact h
  · unfold reportInStopping
    split
    · exact h.modMotion ..
    · split
      · exact h.modMotion ..
      · exact h
  · unfold reportInBroken
    split
    · exact queueNotice_calm _ (h.modMotion ..)
    · exact h

theorem countStall_calm (p : Fin 8) (h : Calm r0 r) : Calm r0 (countStall e p r) := by
  unfold countStall
  dsimp only
  split
  · exact enterBroken_calm _ (h.modMotion ..)
  · exact h.modMotion ..

theorem stallStep_calm (p : Fin 8) (k : Count) (h : Calm r0 r) : Calm r0 (stallStep e p k r) := by
  unfold stallStep
  split
  · split
    · exact h.modMotion ..
    all_goals exact countStall_calm _ h
  · exact h

theorem takeReport_calm (p : Fin 8) (now : Byte) (w : BitVec 16) (h : Calm r0 r) :
    Calm r0 (takeReport e p now w r) :=
  (handIfChanged_calm _ _ ((stallStep_calm _ _ (motionStep_calm _ _ _ (countStep_calm _ _ _
    (gapStep_calm _ (h.hand _))))).modMotion ..)).handAll _

theorem startTaken_calm (p : Fin 8) (h : Calm r0 r) : Calm r0 (startTaken e p r) := by
  unfold startTaken
  split
  case h_1 | h_2 => exact handChange_calm _ _ (h.modMotion ..)
  all_goals exact h

theorem stopTaken_calm (p : Fin 8) (h : Calm r0 r) : Calm r0 (stopTaken e p r) := by
  unfold stopTaken
  split
  case h_1 | h_2 => exact handChange_calm _ _ (h.modMotion ..)
  all_goals exact h

theorem becomeSilent_calm (p : Fin 8) (h : Calm r0 r) : Calm r0 (becomeSilent e p r) := by
  unfold becomeSilent
  split
  · exact handChange_calm _ _ ((raisePosition_calm _ _ (h.modMotion ..)).hand _)
  · exact h

theorem expireRunup_calm (p : Fin 8) (h : Calm r0 r) : Calm r0 (expireRunup e p r) := by
  unfold expireRunup
  split
  · exact handChange_calm _ _ (((queueFor_calm _ _ (raisePosition_calm _ _ h)).modMotion ..).hand _)
  · exact h

theorem expireStop_calm (p : Fin 8) (h : Calm r0 r) : Calm r0 (expireStop e p r) := by
  unfold expireStop
  split
  · exact raisePosition_calm _ _ (h.modMotion ..)
  · exact h

theorem regain_calm (h : Calm r0 r) : Calm r0 (regain e r) := by
  rw [regain_frame]
  exact h.trans ⟨rfl, rfl, rfl, rfl⟩

/-! ### The Rule Unit -/

theorem countRule_calm (p : Fin 8) (now : Byte) (j : Motion) (i : Fin 16) (h : Calm r0 r) :
    Calm r0 (countRule e p now j r i) := by
  unfold countRule
  dsimp only
  split
  · exact h.counters _
  · exact h

theorem stopAction_calm (p : Fin 8) (h : Calm r0 r) : Calm r0 (stopAction e p r) :=
  queueFor_calm _ _ (queueFor_calm _ _ h)

theorem raiseRule_calm (p : Fin 8) (i : Fin 16) (h : Calm r0 r) : Calm r0 (raiseRule e p i r) := raise_calm _ _ _ h

/-! ### Hand-offs -/

theorem pickHandoff_calm {r1 : Run} {x : Handoff} (hp : pickHandoff r = some (x, r1)) (h : Calm r0 r) : Calm r0 r1 := by
  obtain ⟨hs, sched, n, rfl⟩ := pickHandoff_eq hp
  exact h.trans ⟨rfl, rfl, rfl, rfl⟩

end

end Sys2Proof.Machine
end

section
/-! PROOFS. The Lamp Unit keeps the strike queue and the gate agreeing with the lamps (for O9). An operation on lamp p
is judged by what stands of the other positions (`StrikesElsewhere`), and by p's own lamp once it is done. -/

namespace Sys2Proof.Machine

/-- The clauses of `StrikesSound` that speak of position p. -/
structure LampSound (r : Run) (p : Fin 8) : Prop where
  queued : p ∈ r.strikeQueue.map StrikeEntry.position ↔ (r.lamps.get p).lamp = .queued
  striking : r.gate = .striking p ↔ (r.lamps.get p).lamp = .striking
  shown : (r.lamps.get p).primed = true ∨ (r.lamps.get p).ready = true → (r.lamps.get p).lamp = .lit

theorem strikesSound_iff {r : Run} :
    StrikesSound r ↔ (r.strikeQueue.map StrikeEntry.position).Nodup ∧ ∀ p, LampSound r p :=
  and_congr_right fun _ => forall_congr' fun _ => ⟨fun ⟨a, b, c⟩ => ⟨a, b, c⟩, fun ⟨a, b, c⟩ => ⟨a, b, c⟩⟩

/-- No position is twice in the queue, and every position but p is sound. -/
def StrikesElsewhere (p : Fin 8) (r : Run) : Prop :=
  (r.strikeQueue.map StrikeEntry.position).Nodup ∧ ∀ q, q ≠ p → LampSound r q

theorem StrikesElsewhere.of_sound {r : Run} (h : StrikesSound r) (p : Fin 8) : StrikesElsewhere p r :=
  ⟨(strikesSound_iff.1 h).1, fun q _ => (strikesSound_iff.1 h).2 q⟩

theorem StrikesElsewhere.complete {r : Run} {p : Fin 8} (h : StrikesElsewhere p r) (hp : LampSound r p) :
    StrikesSound r := by
  refine strikesSound_iff.2 ⟨h.1, fun q => ?_⟩
  by_cases hq : q = p
  · rw [hq]; exact hp
  · exact h.2 q hq

theorem LampSound.of_calm {r0 r : Run} (h : Calm r0 r) {p : Fin 8} (hp : LampSound r0 p) : LampSound r p := by
  obtain ⟨queued, striking, shown⟩ := hp
  exact ⟨by rw [h.queue, h.lamps]; exact queued, by rw [h.gate, h.lamps]; exact striking,
    by rw [h.lamps]; exact shown⟩

theorem StrikesElsewhere.of_calm {r0 r : Run} (h : Calm r0 r) {p : Fin 8} (hp : StrikesElsewhere p r0) :
    StrikesElsewhere p r :=
  ⟨by rw [h.queue]; exact hp.1, fun q hq => (hp.2 q hq).of_calm h⟩

theorem strikesSound_of_calm {r0 r : Run} (h : Calm r0 r) (h0 : StrikesSound r0) : StrikesSound r :=
  strikesSound_iff.2 ⟨by rw [h.queue]; exact h0.1, fun p => ((strikesSound_iff.1 h0).2 p).of_calm h⟩

section
variable {e : Env} {r : Run} {p : Fin 8}

/-! ### Updates of p alone -/

theorem StrikesElsewhere.modLamp (f : LampRec → LampRec) (h : StrikesElsewhere p r) :
    StrikesElsewhere p (r.modLamp p f) := by
  refine ⟨h.1, fun q hq => ?_⟩
  obtain ⟨queued, striking, shown⟩ := h.2 q hq
  have same : (r.modLamp p f).lamps.get q = r.lamps.get q := by
    rw [Run.modLamp_get, if_neg (Ne.symm hq)]
  exact ⟨by rw [same]; exact queued, by rw [same]; exact striking, by rw [same]; exact shown⟩

theorem leaveStrike_positions (p : Fin 8) (r : Run) :
    (r.leaveStrike p).strikeQueue.map StrikeEntry.position
      = (r.strikeQueue.map StrikeEntry.position).filter (fun q => q != p) := by
  show (r.strikeQueue.filter _).map StrikeEntry.position = _
  rw [List.filter_map]
  rfl

theorem not_mem_leaveStrike (p : Fin 8) (r : Run) :
    p ∉ (r.leaveStrike p).strikeQueue.map StrikeEntry.position := by
  rw [leaveStrike_positions]
  simp

theorem StrikesElsewhere.leaveStrike (h : StrikesElsewhere p r) : StrikesElsewhere p (r.leaveStrike p) := by
  refine ⟨by rw [leaveStrike_positions]; exact h.1.filter _, fun q hq => ?_⟩
  obtain ⟨queued, striking, shown⟩ := h.2 q hq
  refine ⟨?_, striking, shown⟩
  rw [leaveStrike_positions, List.mem_filter]
  refine Iff.trans ⟨And.left, fun m => ⟨m, by simpa using hq⟩⟩ queued

/-- A lamp may change while it stays in or out of QUEUED and STRIKING, where PRIMED and READY then fit it. -/
theorem strikesSound_modLamp {f : LampRec → LampRec} (h : StrikesSound r)
    (queued : (f (r.lamps.get p)).lamp = .queued ↔ (r.lamps.get p).lamp = .queued)
    (striking : (f (r.lamps.get p)).lamp = .striking ↔ (r.lamps.get p).lamp = .striking)
    (shown : (f (r.lamps.get p)).primed = true ∨ (f (r.lamps.get p)).ready = true → (f (r.lamps.get p)).lamp = .lit) :
    StrikesSound (r.modLamp p f) := by
  refine (StrikesElsewhere.modLamp f (.of_sound h p)).complete ?_
  have here : (r.modLamp p f).lamps.get p = f (r.lamps.get p) := by rw [Run.modLamp_get, if_pos rfl]
  obtain ⟨was_queued, was_striking, _⟩ := (strikesSound_iff.1 h).2 p
  exact ⟨by rw [here, queued]; exact was_queued, by rw [here, striking]; exact was_striking, by rw [here]; exact shown⟩

/-- A lamp record may change in what is neither its state nor PRIMED nor READY. -/
theorem strikesSound_modLamp_same {f : LampRec → LampRec} (lamp : ∀ l, (f l).lamp = l.lamp)
    (primed : ∀ l, (f l).primed = l.primed) (ready : ∀ l, (f l).ready = l.ready) (h : StrikesSound r) :
    StrikesSound (r.modLamp p f) := by
  have shown := ((strikesSound_iff.1 h).2 p).shown
  exact strikesSound_modLamp h (by rw [lamp]) (by rw [lamp]) (by rw [lamp, primed, ready]; exact shown)

/-! ### PRIMED and READY (R60, R61) -/

theorem lit_of_primedNow {su : Setup} (h : primedNow su r p = true) : (r.lamps.get p).lamp = .lit := by
  unfold primedNow at h
  simp only [Bool.and_eq_true, beq_iff_eq] at h
  exact h.1.1.1.2

theorem lit_of_readyNow (h : readyNow r p = true) : (r.lamps.get p).lamp = .lit := by
  unfold readyNow at h
  simp only [Bool.and_eq_true, beq_iff_eq] at h
  exact h.1.1.2

theorem publish_lamp (a b : Bool) (r : Run) (q : Fin 8) :
    (publish e p a b r).lamps.get q = if p = q then { r.lamps.get p with primed := a, ready := b } else r.lamps.get q := by
  unfold publish
  dsimp only
  rw [Run.handAll_lamps, Run.modLamp_get]

theorem publish_elsewhere (a b : Bool) (h : StrikesElsewhere p r) : StrikesElsewhere p (publish e p a b r) :=
  StrikesElsewhere.of_calm (Calm.handAll _ (.refl _)) (h.modLamp _)

/-- Publishing settles p, where PRIMED and READY now fit its lamp. -/
theorem publish_settles {a b : Bool} (h : StrikesElsewhere p r)
    (queued : p ∈ r.strikeQueue.map StrikeEntry.position ↔ (r.lamps.get p).lamp = .queued)
    (striking : r.gate = .striking p ↔ (r.lamps.get p).lamp = .striking)
    (fits : a = true ∨ b = true → (r.lamps.get p).lamp = .lit) : StrikesSound (publish e p a b r) := by
  have here : (publish e p a b r).lamps.get p = { r.lamps.get p with primed := a, ready := b } := by
    rw [publish_lamp, if_pos rfl]
  exact (publish_elsewhere a b h).complete
    ⟨by rw [here]; exact queued, by rw [here]; exact striking, by rw [here]; exact fits⟩

theorem workConditions_settles (h : StrikesElsewhere p r)
    (queued : p ∈ r.strikeQueue.map StrikeEntry.position ↔ (r.lamps.get p).lamp = .queued)
    (striking : r.gate = .striking p ↔ (r.lamps.get p).lamp = .striking) : StrikesSound (workConditions e p r) :=
  publish_settles h queued striking fun shown => shown.elim lit_of_primedNow lit_of_readyNow

theorem workConditions_strikes (h : StrikesSound r) : StrikesSound (workConditions e p r) :=
  have here := (strikesSound_iff.1 h).2 p
  workConditions_settles (.of_sound h p) here.queued here.striking

/-! ### The strike gate (R53, R54, R56) -/

/-- R54: a FREE gate grants. -/
theorem grantTo_strikes (h : StrikesSound r) (free : r.gate = .free) : StrikesSound (grantTo e p r) := by
  have granted : StrikesElsewhere p (((r.leaveStrike p).modLamp p
      (fun l => { l with lamp := .striking, strikeTimer := some 0 })).setGate (.striking p)) := by
    obtain ⟨nodup', others⟩ := (StrikesElsewhere.of_sound h p).leaveStrike.modLamp
      (fun l => { l with lamp := .striking, strikeTimer := some 0 })
    refine ⟨nodup', fun q hq => ⟨(others q hq).queued, ?_, (others q hq).shown⟩⟩
    have idle := (others q hq).striking
    rw [show ((r.leaveStrike p).modLamp p _).gate = .free from free] at idle
    exact ⟨fun g => absurd (Gate.striking.inj g).symm hq, fun l => absurd (idle.2 l) (by simp)⟩
  have ordered := queueFor_calm (e := e) p .lampUp (.refl (((r.leaveStrike p).modLamp p
      (fun l => { l with lamp := .striking, strikeTimer := some 0 })).setGate (.striking p)))
  have lamp : ((queueFor e p .lampUp (((r.leaveStrike p).modLamp p
      (fun l => { l with lamp := .striking, strikeTimer := some 0 })).setGate (.striking p))).lamps.get p).lamp
      = .striking := by
    rw [ordered.lamps, Run.setGate_lamps, Run.modLamp_get, if_pos rfl]
  refine workConditions_settles (granted.of_calm ordered) ?_ ?_
  · rw [lamp, ordered.queue]
    exact ⟨fun m => absurd m (not_mem_leaveStrike p r), fun l => absurd l (by decide)⟩
  · rw [lamp, ordered.gate]
    exact ⟨fun _ => rfl, fun _ => rfl⟩

theorem offerGrant_strikes (h : StrikesSound r) : StrikesSound (offerGrant e r) := by
  unfold offerGrant
  split
  · rename_i free
    split
    · exact grantTo_strikes h free
    · exact h
  · exact h
  · exact h

/-- The gate may be set to anything but STRIKING while no lamp is STRIKING. -/
theorem setGate_strikes {g : Gate} (h : (r.strikeQueue.map StrikeEntry.position).Nodup)
    (queued : ∀ q, q ∈ r.strikeQueue.map StrikeEntry.position ↔ (r.lamps.get q).lamp = .queued)
    (shown : ∀ q, (r.lamps.get q).primed = true ∨ (r.lamps.get q).ready = true → (r.lamps.get q).lamp = .lit)
    (none_strikes : ∀ q, (r.lamps.get q).lamp ≠ .striking) (hg : ∀ q, g ≠ .striking q) : StrikesSound (r.setGate g) :=
  strikesSound_iff.2 ⟨h, fun q => ⟨queued q, ⟨fun a => absurd a (hg q), fun a => absurd a (none_strikes q)⟩, shown q⟩⟩

theorem enterGap_strikes (h : ∀ g : Gate, (∀ q, g ≠ .striking q) → StrikesSound (r.setGate g)) :
    StrikesSound (enterGap e r) := by
  unfold enterGap
  split
  · exact offerGrant_strikes (h .free (by simp))
  · exact h (.gap 0) (by simp)

/-- The gate leaves STRIKING p, whose lamp has left QUEUED and STRIKING. -/
theorem endStrikeOf_settles (h : StrikesElsewhere p r) (unqueued : p ∉ r.strikeQueue.map StrikeEntry.position)
    (lamp : (r.lamps.get p).lamp ≠ .queued ∧ (r.lamps.get p).lamp ≠ .striking)
    (shown : (r.lamps.get p).primed = true ∨ (r.lamps.get p).ready = true → (r.lamps.get p).lamp = .lit) :
    StrikesSound (endStrikeOf e p r) := by
  unfold endStrikeOf
  split
  · rename_i gate
    refine enterGap_strikes fun g hg => setGate_strikes h.1 (fun q => ?_) (fun q => ?_) (fun q => ?_) hg
    · by_cases hq : q = p
      · subst hq; exact ⟨fun m => absurd m unqueued, fun l => absurd l lamp.1⟩
      · exact (h.2 q hq).queued
    · by_cases hq : q = p
      · subst hq; exact shown
      · exact (h.2 q hq).shown
    · by_cases hq : q = p
      · subst hq; exact lamp.2
      · intro strikes
        have := (h.2 q hq).striking.2 strikes
        rw [gate] at this
        exact hq (Gate.striking.inj this).symm
  · rename_i gate
    exact h.complete ⟨⟨fun m => absurd m unqueued, fun l => absurd l lamp.1⟩,
      ⟨fun g => absurd g gate, fun l => absurd l lamp.2⟩, shown⟩

theorem strikeRequest_strikes (q : Fin 8) (c : StrikeClass) (h : StrikesSound r) :
    StrikesSound (strikeRequest e q c r) := by
  unfold strikeRequest
  split
  · rename_i asked
    have dark : (r.lamps.get q).lamp = .dark := by
      rw [Bool.and_eq_true, beq_iff_eq] at asked
      exact asked.2
    obtain ⟨nodup, lamps⟩ := strikesSound_iff.1 h
    obtain ⟨was_queued, was_striking, was_shown⟩ := lamps q
    have out : q ∉ r.strikeQueue.map StrikeEntry.position := fun m => by
      have := was_queued.1 m
      rw [dark] at this; cases this
    refine offerGrant_strikes (strikesSound_iff.2 ⟨?_, fun p => ?_⟩)
    · show ((r.strikeQueue ++ [StrikeEntry.mk q c]).map StrikeEntry.position).Nodup
      rw [List.map_append, List.map_singleton]
      exact List.nodup_append.2 ⟨nodup, List.pairwise_singleton _ _, fun a ha b hb => by
        rw [List.mem_singleton.1 hb]; rintro rfl; exact out ha⟩
    · have joined : p ∈ (r.strikeQueue ++ [StrikeEntry.mk q c]).map StrikeEntry.position
          ↔ p ∈ r.strikeQueue.map StrikeEntry.position ∨ p = q := by simp
      by_cases hp : q = p
      · subst hp
        have here : (((r.joinStrike { position := q, cls := c }).modLamp q (fun l => { l with lamp := .queued })).lamps.get q)
            = { r.lamps.get q with lamp := .queued } := by rw [Run.modLamp_get, if_pos rfl]; rfl
        refine ⟨?_, ?_, fun s => ?_⟩
        · rw [here]
          exact ⟨fun _ => rfl, fun _ => joined.2 (.inr rfl)⟩
        · rw [here]
          refine ⟨fun g => ?_, fun l => by cases l⟩
          have := was_striking.1 g
          rw [dark] at this; cases this
        · rw [here] at s
          have := was_shown s
          rw [dark] at this; cases this
      · have there : (((r.joinStrike { position := q, cls := c }).modLamp q (fun l => { l with lamp := .queued })).lamps.get p)
            = r.lamps.get p := by rw [Run.modLamp_get, if_neg hp]; rfl
        refine ⟨?_, by rw [there]; exact (lamps p).striking, by rw [there]; exact (lamps p).shown⟩
        rw [there, ← (lamps p).queued]
        exact joined.trans ⟨fun m => m.resolve_right (Ne.symm hp), .inl⟩
  · exact h

end

end Sys2Proof.Machine
end

section
/-! PROOFS. What the Lamp Unit, and the Cue Scanner within the record at the cursor, keep (for O9): no cursor moves, and
the strike queue and the gate go on agreeing with the lamps. -/

namespace Sys2Proof.Machine

/-! ### The Lamp Unit leaves the scanning records -/

section
variable {e : Env} {r : Run} {p : Fin 8}

@[simp] theorem queueFor_scans (p : Fin 8) (o : Order) : (queueFor e p o r).scans = r.scans :=
  (queueFor_calm p o (.refl r)).scans

@[simp] theorem raisePosition_scans (k : Fin 82) (p : Fin 8) : (raisePosition e k p r).scans = r.scans :=
  raise_scans ..

@[simp] theorem publish_scans (a b : Bool) : (publish e p a b r).scans = r.scans := rfl

@[simp] theorem workConditions_scans : (workConditions e p r).scans = r.scans := rfl

@[simp] theorem grantTo_scans : (grantTo e p r).scans = r.scans := by
  unfold grantTo
  simp

@[simp] theorem offerGrant_scans : (offerGrant e r).scans = r.scans := by
  unfold offerGrant
  split
  · split <;> simp
  · rfl
  · rfl

@[simp] theorem enterGap_scans : (enterGap e r).scans = r.scans := by
  unfold enterGap freeGate
  split <;> simp

@[simp] theorem endStrikeOf_scans : (endStrikeOf e p r).scans = r.scans := by
  unfold endStrikeOf
  split <;> simp

@[simp] theorem strikeRequest_scans (c : StrikeClass) : (strikeRequest e p c r).scans = r.scans := by
  unfold strikeRequest
  split <;> simp

@[simp] theorem lampDownTaken_scans : (lampDownTaken e p r).scans = r.scans := by
  unfold lampDownTaken
  dsimp only
  rw [workConditions_scans]
  split <;> split <;> simp

@[simp] theorem lampDownRequest_scans : (lampDownRequest e p r).scans = r.scans := by
  unfold lampDownRequest
  simp

@[simp] theorem enterSettling_scans : (enterSettling e p r).scans = r.scans := by
  unfold enterSettling
  dsimp only
  split <;> rfl

@[simp] theorem lampLost_scans : (lampLost e p r).scans = r.scans := by
  unfold lampLost
  simp

@[simp] theorem lampSignal_scans (lamp : Bool) : (lampSignal e p lamp r).scans = r.scans := by
  unfold lampSignal
  dsimp only
  split <;> try split
  all_goals simp

/-- R47: the four steps of a report, after which a grant may be offered. -/
theorem takeLampReport_cases (e : Env) (p : Fin 8) (a b : Bool) (r : Run) :
    let worked := workConditions e p ((lampSignal e p a r).modLamp p (fun l =>
      { l with downPending := a && l.downPending, dowser := if b then .opened else .closed }))
    takeLampReport e p a b r = offerGrant e worked ∨ takeLampReport e p a b r = worked :=
  if h : _ then .inl (if_pos h) else .inr (if_neg h)

@[simp] theorem takeLampReport_scans (a b : Bool) : (takeLampReport e p a b r).scans = r.scans := by
  rcases takeLampReport_cases e p a b r with h | h <;> rw [h] <;> simp

@[simp] theorem expireStrike_scans : (expireStrike e p r).scans = r.scans := by
  unfold expireStrike
  dsimp only
  split
  · rw [workConditions_scans]
    split
    · split <;> simp [withdrawOrder]
    · simp
  · rfl

/-! ### LAMP DOWN (R51) -/

theorem takenDown_lamp (l : LampRec) :
    (l.takenDown.lamp ≠ .queued ∧ l.takenDown.lamp ≠ .striking)
      ∧ l.takenDown.primed = l.primed ∧ l.takenDown.ready = l.ready := by
  unfold LampRec.takenDown
  split <;> simp_all

theorem lampDownTaken_strikes (h : StrikesSound r) : StrikesSound (lampDownTaken e p r) := by
  have here := (strikesSound_iff.1 h).2 p
  have down : (r.modLamp p LampRec.takenDown).lamps.get p = (r.lamps.get p).takenDown := by
    rw [Run.modLamp_get, if_pos rfl]
  obtain ⟨⟨unqueued, unstruck⟩, primed, ready⟩ := takenDown_lamp (r.lamps.get p)
  have elsewhere := (StrikesElsewhere.of_sound h p).modLamp LampRec.takenDown
  unfold lampDownTaken
  dsimp only
  by_cases queued : (r.lamps.get p).lamp = .queued
  · rw [if_pos queued, if_neg (by rw [queued]; decide)]
    have left := elsewhere.leaveStrike
    have lamp : ((r.modLamp p LampRec.takenDown).leaveStrike p).lamps.get p = (r.lamps.get p).takenDown := down
    refine workConditions_settles left ?_ ?_
    · rw [lamp]
      exact ⟨fun m => absurd m (not_mem_leaveStrike _ _), fun l => absurd l unqueued⟩
    · rw [lamp]
      refine ⟨fun g => ?_, fun l => absurd l unstruck⟩
      have := here.striking.1 g
      rw [queued] at this; cases this
  · have out : p ∉ (r.modLamp p LampRec.takenDown).strikeQueue.map StrikeEntry.position :=
      fun m => queued (here.queued.1 m)
    rw [if_neg queued]
    by_cases striking : (r.lamps.get p).lamp = .striking
    · rw [if_pos striking]
      refine workConditions_strikes (endStrikeOf_settles elsewhere out (by rw [down]; exact ⟨unqueued, unstruck⟩) ?_)
      rw [down, primed, ready]
      intro s
      have := here.shown s
      rw [striking] at this; cases this
    · rw [if_neg striking]
      refine workConditions_settles elsewhere ?_ ?_
      · rw [down]
        exact ⟨fun m => absurd m out, fun l => absurd l unqueued⟩
      · rw [down]
        exact ⟨fun g => absurd (here.striking.1 g) striking, fun l => absurd l unstruck⟩

theorem lampDownRequest_strikes (h : StrikesSound r) : StrikesSound (lampDownRequest e p r) :=
  strikesSound_of_calm (queueFor_calm _ _ (.refl _)) (lampDownTaken_strikes h)

/-! ### Reports (R47 to R50) -/

theorem settled_lamp (limit : Nat) (l : LampRec) :
    ((l.settled limit).lamp = .lit ∨ (l.settled limit).lamp = .settling)
      ∧ (l.settled limit).primed = l.primed ∧ (l.settled limit).ready = l.ready := by
  unfold LampRec.settled
  split <;> simp

theorem enterSettling_calm (p : Fin 8) (r : Run) :
    Calm (r.modLamp p (LampRec.settled e.setup.params.lampSettle)) (enterSettling e p r) := by
  unfold enterSettling
  dsimp only
  split
  · exact Calm.hand _ (.refl _)
  · exact .refl _

/-- What stands of p once its lamp has entered SETTLING from a state that shows neither PRIMED nor READY. -/
theorem enterSettling_here (unlit : (r.lamps.get p).lamp ≠ .lit)
    (shown : (r.lamps.get p).primed = true ∨ (r.lamps.get p).ready = true → (r.lamps.get p).lamp = .lit) :
    (((enterSettling e p r).lamps.get p).lamp ≠ .queued ∧ ((enterSettling e p r).lamps.get p).lamp ≠ .striking)
      ∧ (((enterSettling e p r).lamps.get p).primed = true ∨ ((enterSettling e p r).lamps.get p).ready = true →
          ((enterSettling e p r).lamps.get p).lamp = .lit) := by
  obtain ⟨lamp, primed, ready⟩ := settled_lamp e.setup.params.lampSettle (r.lamps.get p)
  rw [(enterSettling_calm p r).lamps, Run.modLamp_get, if_pos rfl, primed, ready]
  exact ⟨by rcases lamp with l | l <;> rw [l] <;> decide, fun s => absurd (shown s) unlit⟩

theorem enterSettling_elsewhere (h : StrikesElsewhere p r) : StrikesElsewhere p (enterSettling e p r) :=
  (h.modLamp _).of_calm (enterSettling_calm p r)

/-- R48 to R50: the LAMP signal leaves the queue and the gate agreeing with every lamp, and PRIMED and READY fitting
every lamp but p's, whose conditions R47 then works afresh. -/
theorem lampSignal_strikes (lamp : Bool) (h : StrikesSound r) :
    StrikesElsewhere p (lampSignal e p lamp r)
      ∧ (p ∈ (lampSignal e p lamp r).strikeQueue.map StrikeEntry.position
          ↔ ((lampSignal e p lamp r).lamps.get p).lamp = .queued)
      ∧ ((lampSignal e p lamp r).gate = .striking p ↔ ((lampSignal e p lamp r).lamps.get p).lamp = .striking) := by
  have here := (strikesSound_iff.1 h).2 p
  have elsewhere := StrikesElsewhere.of_sound h p
  have of_sound : ∀ {r' : Run}, StrikesSound r' → StrikesElsewhere p r'
      ∧ (p ∈ r'.strikeQueue.map StrikeEntry.position ↔ (r'.lamps.get p).lamp = .queued)
      ∧ (r'.gate = .striking p ↔ (r'.lamps.get p).lamp = .striking) := fun s =>
    ⟨.of_sound s p, ((strikesSound_iff.1 s).2 p).queued, ((strikesSound_iff.1 s).2 p).striking⟩
  have out : ∀ {l}, (r.lamps.get p).lamp = l → l ≠ .queued → p ∉ r.strikeQueue.map StrikeEntry.position :=
    fun hl hq m => hq (hl.symm.trans (here.queued.1 m))
  have ungated : ∀ {l}, (r.lamps.get p).lamp = l → l ≠ .striking → r.gate ≠ .striking p :=
    fun hl hs g => hs (hl.symm.trans (here.striking.1 g))
  have plain : ∀ {l} (f : LampRec → LampRec) (l' : LampState), (r.lamps.get p).lamp = l → l ≠ .queued → l ≠ .striking →
      (∀ x, (f x).lamp = l') → l' ≠ .queued → l' ≠ .striking → StrikesElsewhere p (r.modLamp p f)
      ∧ (p ∈ (r.modLamp p f).strikeQueue.map StrikeEntry.position ↔ ((r.modLamp p f).lamps.get p).lamp = .queued)
      ∧ ((r.modLamp p f).gate = .striking p ↔ ((r.modLamp p f).lamps.get p).lamp = .striking) := by
    intro l f l' hl hq hs hf hq' hs'
    rw [Run.modLamp_get, if_pos rfl, hf]
    exact ⟨elsewhere.modLamp _, ⟨fun m => absurd m (out hl hq), fun a => absurd a hq'⟩,
      ⟨fun g => absurd g (ungated hl hs), fun a => absurd a hs'⟩⟩
  have settling : ∀ {r' : Run}, StrikesElsewhere p r' → p ∉ r'.strikeQueue.map StrikeEntry.position →
      r'.gate ≠ .striking p → r'.lamps = r.lamps → (r.lamps.get p).lamp ≠ .lit →
      StrikesElsewhere p (enterSettling e p r')
      ∧ (p ∈ (enterSettling e p r').strikeQueue.map StrikeEntry.position
          ↔ ((enterSettling e p r').lamps.get p).lamp = .queued)
      ∧ ((enterSettling e p r').gate = .striking p ↔ ((enterSettling e p r').lamps.get p).lamp = .striking) := by
    intro r' others unqueued gate lamps unlit
    obtain ⟨⟨uq, us⟩, _⟩ := enterSettling_here (e := e) (r := r') (p := p) (by rw [lamps]; exact unlit)
      (by rw [lamps]; exact here.shown)
    refine ⟨enterSettling_elsewhere others, ⟨fun m => absurd ?_ unqueued, fun a => absurd a uq⟩,
      ⟨fun g => absurd ?_ gate, fun a => absurd a us⟩⟩
    · rwa [(enterSettling_calm p r').queue] at m
    · rwa [(enterSettling_calm p r').gate] at g
  have gone : ∀ {l}, (r.lamps.get p).lamp = l → l ≠ .queued → l ≠ .striking → StrikesElsewhere p (lampLost e p r)
      ∧ (p ∈ (lampLost e p r).strikeQueue.map StrikeEntry.position ↔ ((lampLost e p r).lamps.get p).lamp = .queued)
      ∧ ((lampLost e p r).gate = .striking p ↔ ((lampLost e p r).lamps.get p).lamp = .striking) := by
    intro l hl hq hs
    obtain ⟨others, queued, striking⟩ := plain (fun l => { l with lamp := .dark, settle := none, fault := true }) .dark
      hl hq hs (fun _ => rfl) (by decide) (by decide)
    have calm : Calm (r.modLamp p (fun l => { l with lamp := .dark, settle := none, fault := true })) (lampLost e p r) :=
      ((raisePosition_calm _ _ (.refl _)).hand _).hand _
    rw [calm.queue, calm.gate, calm.lamps]
    exact ⟨others.of_calm calm, queued, striking⟩
  unfold lampSignal
  dsimp only
  split
  case h_1 was => exact plain _ .lit was (by decide) (by decide) (fun _ => rfl) (by decide) (by decide)
  case h_2 was => exact plain _ .dark was (by decide) (by decide) (fun _ => rfl) (by decide) (by decide)
  case h_3 was =>
    split
    · exact of_sound h
    · exact settling elsewhere (out was (by decide)) (ungated was (by decide)) rfl (by rw [was]; decide)
  case h_4 was =>
    split
    · exact of_sound h
    · exact settling elsewhere.leaveStrike (not_mem_leaveStrike p r) (ungated was (by decide)) rfl
        (by rw [was]; decide)
  case h_7 was =>
    have unlit : (r.lamps.get p).lamp ≠ .lit := by rw [was]; decide
    obtain ⟨lamp, shown⟩ := enterSettling_here (e := e) (r := r) (p := p) unlit here.shown
    refine of_sound (endStrikeOf_settles (enterSettling_elsewhere elsewhere) ?_ lamp shown)
    rw [(enterSettling_calm p r).queue]
    exact out was (by decide)
  case h_11 was => exact gone was (by decide) (by decide)
  case h_12 was => exact gone was (by decide) (by decide)
  all_goals exact of_sound h

theorem takeLampReport_strikes (a b : Bool) (h : StrikesSound r) : StrikesSound (takeLampReport e p a b r) := by
  obtain ⟨others, queued, striking⟩ := lampSignal_strikes (e := e) (p := p) a h
  have worked : StrikesSound (workConditions e p ((lampSignal e p a r).modLamp p (fun l =>
      { l with downPending := a && l.downPending, dowser := if b then .opened else .closed }))) := by
    refine workConditions_settles (others.modLamp _) ?_ ?_
    · rw [Run.modLamp_get, if_pos rfl]; exact queued
    · rw [Run.modLamp_get, if_pos rfl]; exact striking
  rcases takeLampReport_cases e p a b r with h | h <;> rw [h]
  · exact offerGrant_strikes worked
  · exact worked

/-! ### Sweep ends and redefinition (R46, R52, R55, R56, R59) -/

theorem countGap_strikes (h : StrikesSound r) : StrikesSound (countGap r) := by
  unfold countGap
  split
  · rename_i n gap
    have sound := (strikesSound_iff.1 h).2
    exact setGate_strikes h.1 (fun q => (sound q).queued) (fun q => (sound q).shown)
      (fun q l => by have := (sound q).striking.2 l; rw [gap] at this; cases this) (by simp)
  · exact h
  · exact h

theorem expireGap_strikes (h : StrikesSound r) : StrikesSound (expireGap e r) := by
  unfold expireGap
  split
  · rename_i due
    unfold gapIsDue at due
    cases gate : r.gate with
    | gap n =>
      have sound := (strikesSound_iff.1 h).2
      exact offerGrant_strikes (setGate_strikes h.1 (fun q => (sound q).queued) (fun q => (sound q).shown)
        (fun q l => by have := (sound q).striking.2 l; rw [gate] at this; cases this) (by simp))
    | free | striking _ => rw [gate] at due; cases due
  · exact h

theorem countStrike_lamp (l : LampRec) :
    l.countStrike.lamp = l.lamp ∧ l.countStrike.primed = l.primed ∧ l.countStrike.ready = l.ready := by
  unfold LampRec.countStrike
  split <;> exact ⟨rfl, rfl, rfl⟩

theorem countSettle_lamp (l : LampRec) :
    l.countSettle.lamp = l.lamp ∧ l.countSettle.primed = l.primed ∧ l.countSettle.ready = l.ready := by
  unfold LampRec.countSettle
  split <;> exact ⟨rfl, rfl, rfl⟩

theorem expireStrike_strikes (h : StrikesSound r) : StrikesSound (expireStrike e p r) := by
  unfold expireStrike
  split
  · rename_i due
    have striking : (r.lamps.get p).lamp = .striking := by
      unfold strikeIsDue at due
      rw [Bool.and_eq_true, beq_iff_eq] at due
      exact due.1
    have raised := raisePosition_calm (e := e) (slotStrike p) p (.refl r)
    have here := ((strikesSound_iff.1 h).2 p).of_calm raised
    have lamp : ((raisePosition e (slotStrike p) p r).lamps.get p).lamp = .striking := by rw [raised.lamps]; exact striking
    have ended : StrikesSound (endStrikeOf e p ((raisePosition e (slotStrike p) p r).modLamp p
        (fun l => { l with lamp := .dark, strikeTimer := none }))) := by
      refine endStrikeOf_settles (((StrikesElsewhere.of_sound h p).of_calm raised).modLamp _) ?_ ?_ ?_
      · intro m
        have := here.queued.1 m
        rw [lamp] at this; cases this
      · rw [Run.modLamp_get, if_pos rfl]; exact ⟨by simp, by simp⟩
      · rw [Run.modLamp_get, if_pos rfl]
        intro s
        have := here.shown s
        rw [lamp] at this; cases this
    dsimp only
    refine workConditions_strikes ?_
    split
    · split
      · exact strikesSound_of_calm (Calm.orders _ (.refl _)) ended
      · exact ended
    · exact lampDownRequest_strikes ended
  · exact h

theorem expireSettle_strikes (h : StrikesSound r) : StrikesSound (expireSettle e p r) := by
  unfold expireSettle
  split
  · rename_i due
    have settling : (r.lamps.get p).lamp = .settling := by
      unfold settleIsDue at due
      rw [Bool.and_eq_true, beq_iff_eq] at due
      exact due.1
    exact workConditions_strikes (strikesSound_modLamp h (by simp [settling]) (by simp [settling]) (fun _ => rfl))
  · exact h

theorem expireDwell_strikes (h : StrikesSound r) : StrikesSound (expireDwell e p r) := by
  unfold expireDwell
  split
  · exact strikesSound_modLamp_same (fun _ => rfl) (fun _ => rfl) (fun _ => rfl)
      (strikesSound_of_calm (raisePosition_calm _ _ (queueFor_calm _ _ (.refl _))) h)
  · exact h

theorem restartLamp_strikes (h : StrikesSound r) : StrikesSound (restartLamp e p r) := by
  have restarted : ((((publish e p false false r).modLamp p (fun _ => LampRec.restarted)).leaveStrike p).lamps.get p)
      = LampRec.restarted := by
    rw [Run.leaveStrike_lamps, Run.modLamp_get, if_pos rfl]
  unfold restartLamp
  dsimp only
  refine endStrikeOf_settles ((publish_elsewhere _ _ (.of_sound h p)).modLamp _).leaveStrike
    (not_mem_leaveStrike _ _) ?_ ?_
  · rw [restarted]; decide
  · rw [restarted]; decide

end

end Sys2Proof.Machine
end

section
/-! PROOFS. The Cue Scanner, the Chain Unit and the hand-offs keep the cursors in range and the strikes sound (for O9):
within one record no cursor moves (`Steady`); a cursor that moves on stands at a record of its list (`Keeps`). -/

namespace Sys2Proof.Machine

/-- No cursor has moved, and sound strikes have stayed sound. -/
structure Steady (r0 r : Run) : Prop where
  cursor : ∀ p, (r.scans.get p).cursor = (r0.scans.get p).cursor
  strikes : StrikesSound r0 → StrikesSound r

/-- Cursors in range have stayed in range, and sound strikes sound. -/
structure Keeps (su : Setup) (r0 r : Run) : Prop where
  cursors : CursorsInRange su r0 → CursorsInRange su r
  strikes : StrikesSound r0 → StrikesSound r

theorem Steady.refl (r : Run) : Steady r r := ⟨fun _ => rfl, id⟩

theorem Keeps.refl (su : Setup) (r : Run) : Keeps su r r := ⟨id, id⟩

section
variable {e : Env} {su : Setup} {r0 r r' : Run}

theorem Steady.trans (h : Steady r0 r) (g : Steady r r') : Steady r0 r' :=
  ⟨fun p => (g.cursor p).trans (h.cursor p), g.strikes ∘ h.strikes⟩

theorem Keeps.trans (h : Keeps su r0 r) (g : Keeps su r r') : Keeps su r0 r' :=
  ⟨g.cursors ∘ h.cursors, g.strikes ∘ h.strikes⟩

theorem Steady.of_calm (h : Calm r r') : Steady r r' :=
  ⟨fun p => by rw [h.scans], strikesSound_of_calm h⟩

/-- An operation of the Lamp Unit. -/
theorem Steady.of_lamps (scans : r'.scans = r.scans) (strikes : StrikesSound r → StrikesSound r') : Steady r r' :=
  ⟨fun p => by rw [scans], strikes⟩

theorem Keeps.of_steady (h : Steady r r') : Keeps su r r' :=
  ⟨fun g p => by rw [h.cursor p]; exact g p, h.strikes⟩

theorem Steady.calm (h : Steady r0 r) (g : Calm r r') : Steady r0 r' := h.trans (.of_calm g)

theorem Keeps.steady (h : Keeps su r0 r) (g : Steady r r') : Keeps su r0 r' := h.trans (.of_steady g)

theorem Keeps.calm (h : Keeps su r0 r) (g : Calm r r') : Keeps su r0 r' := h.steady (.of_calm g)

theorem Calm.ite {c : Prop} [Decidable c] {a b : Run} (h : Calm r0 a) (g : Calm r0 b) :
    Calm r0 (if c then a else b) := by
  split
  · exact h
  · exact g

theorem Keeps.ite {c : Prop} [Decidable c] {a b : Run} (h : Keeps su r0 a) (g : Keeps su r0 b) :
    Keeps su r0 (if c then a else b) := by
  split
  · exact h
  · exact g

theorem foldl_keeps {α : Type} {f : Run → α → Run} (hf : ∀ r a, Keeps su r (f r a)) (l : List α) (r : Run) :
    Keeps su r (l.foldl f r) := by
  induction l generalizing r with
  | nil => exact .refl su r
  | cons a l ih => exact (hf r a).trans (ih _)

/-! ### Scanning records -/

/-- A change of scanning records leaves the lamps, the queue and the gate. -/
theorem modScan_strikes (p : Fin 8) (f : ScanRec → ScanRec) (h : StrikesSound r) : StrikesSound (r.modScan p f) := h

theorem modScan_steady (p : Fin 8) {f : ScanRec → ScanRec} (hf : ∀ x, (f x).cursor = x.cursor) :
    Steady r (r.modScan p f) := by
  refine ⟨fun q => ?_, modScan_strikes p f⟩
  rw [Run.modScan_get]
  split
  · rename_i hq; rw [hf, hq]
  · rfl

theorem modScan_keeps (p : Fin 8) {f : ScanRec → ScanRec}
    (hf : (f (r.scans.get p)).cursor ≤ listLength su p) : Keeps su r (r.modScan p f) := by
  refine ⟨fun h q => ?_, modScan_strikes p f⟩
  rw [Run.modScan_get]
  split
  · rename_i hq; rw [← hq]; exact hf
  · exact h q

theorem afterHold_calm (p : Fin 8) (was : ScanHold) (r : Run) :
    Calm r (match was, chainOf e.setup p with
      | .hold, some (c, _) => holdEnd e c p .noNotice r
      | _, _ => r) := by
  split
  · exact holdEnd_calm _ _ _ (.refl _)
  · exact .refl _

theorem endScanHold_steady (p : Fin 8) {f : ScanRec → ScanRec} (hf : ∀ x, (f x).cursor = x.cursor) :
    Steady r (endScanHold e p f r) :=
  (modScan_steady p hf).calm (afterHold_calm ..)

theorem endScanHold_keeps (p : Fin 8) {f : ScanRec → ScanRec}
    (hf : (f (r.scans.get p)).cursor ≤ listLength su p) : Keeps su r (endScanHold e p f r) :=
  (modScan_keeps p hf).calm (afterHold_calm ..)

/-! ### Actions (R85 to R89) -/

theorem strikeRequest_steady (p : Fin 8) (c : StrikeClass) : Steady r (strikeRequest e p c r) :=
  .of_lamps (strikeRequest_scans c) (strikeRequest_strikes p c)

theorem lampDownRequest_steady (p : Fin 8) : Steady r (lampDownRequest e p r) :=
  .of_lamps lampDownRequest_scans lampDownRequest_strikes

theorem prerollOrders_calm (q : Fin 8) (r : Run) : Calm r (prerollOrders e q r) :=
  queueFor_calm _ _ (queueFor_calm _ _ (.refl _))

theorem beginHold_steady (c : Fin 4) (p q : Fin 8) (k : HoldKind) : Steady r (beginHold e c p q k r).1 := by
  unfold beginHold
  split
  · have put : Steady r (putHold p q r) := modScan_steady p fun _ => rfl
    exact (put.calm (Calm.modChain _ _ (.refl _))).trans (strikeRequest_steady _ _)
  · exact .refl _

theorem takePreroll_steady (c : Fin 4) (p q : Fin 8) (require : Bool) :
    Steady r (takePreroll e c p q require r).1 := by
  unfold takePreroll
  split
  · exact .of_calm (prerollOrders_calm q r)
  · split
    · exact .of_calm (holdFault_calm _ _ _ (.refl _))
    · split
      · exact .of_calm (prerollOrders_calm q r)
      · exact beginHold_steady ..

theorem takeChange_steady (c : Fin 4) (p q : Fin 8) (require : Bool) :
    Steady r (takeChange e c p q require r).1 := by
  unfold takeChange
  split
  · exact .of_calm (changeover_calm _ _ _ _ _ (.refl _))
  · split
    · exact .of_calm (holdFault_calm _ _ _ (.refl _))
    · split
      · exact .of_calm (changeover_calm _ _ _ _ _ (.refl _))
      · exact beginHold_steady ..

theorem takeChainAction_steady (c : Fin 4) (p : Fin 8) (q : Option (Fin 8)) (a : Action) :
    Steady r (takeChainAction e c p q a r).1 := by
  unfold takeChainAction
  split
  · exact .of_calm (plannedCaption_calm _ (.refl _))
  · exact takePreroll_steady ..
  · exact takeChange_steady ..
  · exact strikeRequest_steady ..
  · exact .refl _

theorem takePartnerAction_steady (p : Fin 8) (a : Action) : Steady r (takePartnerAction e p a r).1 := by
  unfold takePartnerAction
  split
  · exact .refl _
  · repeat' split
    all_goals first | exact .refl _ | exact takeChainAction_steady ..

theorem ownAction_steady (p : Fin 8) (a : Action) : Steady r (ownAction e p a r) := by
  unfold ownAction
  split
  · exact lampDownRequest_steady p
  · exact .of_calm (queueFor_calm _ _ (queueFor_calm _ _ (.refl _)))

theorem takeOwnAction_steady (p : Fin 8) (a : Action) : Steady r (takeOwnAction e p a r).1 := by
  unfold takeOwnAction
  split
  · exact .refl _
  · split
    · have put : Steady r (putWait p r) := modScan_steady p fun _ => rfl
      exact put
    · exact ownAction_steady ..

theorem takeAction_steady (p : Fin 8) (a : Action) : Steady r (takeAction e p a r).1 := by
  unfold takeAction
  split
  case h_1 => exact .refl _
  case h_2 | h_3 => exact takeOwnAction_steady ..
  all_goals exact takePartnerAction_steady ..

/-! ### Triggers and held records (R84, R91) -/

theorem raiseMarkMissing_calm (p : Fin 8) (r : Run) : Calm r (raiseMarkMissing e p r) := by
  unfold raiseMarkMissing
  split
  · exact raiseChain_calm _ (.refl _)
  · exact .refl _

theorem noteMet_steady (p : Fin 8) (b : Bool) : Steady r (noteMet e p b r) := by
  have noted : Steady r (r.modScan p (fun x => { x with met := some b })) := modScan_steady p fun _ => rfl
  unfold noteMet
  dsimp only
  split
  · exact noted.calm (raiseMarkMissing_calm ..)
  · exact noted

theorem takeHeldIn_steady (ev : CueEvent) (c : Fin 4) (p q : Fin 8) (a : Action) :
    Steady r (takeHeldIn e ev c p q a r).1 := by
  have ends : ∀ how, Steady r (holdEnd e c p how r) := fun how => .of_calm (holdEnd_calm _ _ _ (.refl _))
  unfold takeHeldIn
  split
  · exact ends _
  · exact ends _
  · exact ends _
  · split
    · exact ends _
    · split
      · exact ends _
      · split
        · unfold conditionCame
          split
          · exact ends _
          · exact (Steady.of_calm (prerollOrders_calm q r)).calm (holdEnd_calm _ _ _ (.refl _))
        · exact .refl _

theorem takeHeld_steady (ev : CueEvent) (p : Fin 8) (a : Action) : Steady r (takeHeld e ev p a r).1 := by
  unfold takeHeld
  split
  · rename_i c _ q _ _
    have noted : Steady r (notePartnerRan p q r) := modScan_steady p fun _ => rfl
    exact noted.trans (takeHeldIn_steady ..)
  · exact .refl _

/-! ### The walk (R83) -/

theorem takeCue_steady (ev : CueEvent) (p : Fin 8) (b : Cue) : Steady r (takeCue e ev p b r).1 := by
  unfold takeCue
  dsimp only
  split
  · exact takeHeld_steady ..
  · exact takeOwnAction_steady ..
  · exact takeAction_steady ..
  · split
    · exact (noteMet_steady ..).trans (takeAction_steady ..)
    · exact .refl _

theorem cursor_lt_of_record {p : Fin 8} {x : Option Cue} (h : cursorRecord su r p = some x) :
    (r.scans.get p).cursor < listLength su p :=
  (List.getElem?_eq_some_iff.1 h).1

/-- R83: the cursor goes past a record it stands at. -/
theorem takeRecord_keeps (ev : CueEvent) (p : Fin 8) : Keeps e.setup r (takeRecord e ev p r).1 := by
  unfold takeRecord
  split
  · exact .refl _ _
  · rename_i at_record
    exact modScan_keeps p (cursor_lt_of_record at_record)
  · rename_i b at_record
    have taken := takeCue_steady (e := e) (r := r) ev p b
    split
    · rename_i r1 how heq
      rw [heq] at taken
      refine ((Keeps.of_steady taken).calm (queueNotice_calm (e := e) _ (.refl _))).trans (modScan_keeps p ?_)
      show ((queueNotice e _ r1).scans.get p).cursor + 1 ≤ _
      rw [queueNotice_scans, taken.cursor]
      exact cursor_lt_of_record at_record
    · rename_i r1 heq
      rw [heq] at taken
      exact .of_steady taken

theorem walk_keeps (ev : CueEvent) (p : Fin 8) (n : Nat) (r : Run) : Keeps e.setup r (walk e ev p n r) := by
  induction n generalizing r with
  | zero => exact .refl _ _
  | succ n ih =>
    have one := takeRecord_keeps (e := e) (r := r) ev p
    unfold walk
    split
    · rename_i r1 heq
      rw [heq] at one
      exact one.trans (ih r1)
    · rename_i r1 heq
      rw [heq] at one
      exact one

theorem evaluate_keeps (ev : CueEvent) (p : Fin 8) (r : Run) : Keeps e.setup r (evaluate e ev p r) := by
  unfold evaluate
  split
  · exact walk_keeps ..
  · exact .refl _ _

theorem evaluateBoth_keeps (ev : CueEvent) (c : Fin 4) (r : Run) : Keeps e.setup r (evaluateBoth e ev c r) :=
  foldl_keeps (fun r p => evaluate_keeps ev p r) _ r

/-! ### Marks (R98, R99) and the loss of reference (R29) -/

theorem takeDot_cursor (dot : Bool) (x : ScanRec) : (x.takeDot dot).cursor = x.cursor := by
  unfold ScanRec.takeDot
  split
  · dsimp only
    split <;> rfl
  · rfl

theorem countMark_steady (p : Fin 8) (r : Run) : Steady r (countMark e p r) := by
  unfold countMark
  split
  · exact modScan_steady p fun _ => rfl
  · exact .refl _

theorem takeCueReport_keeps (p : Fin 8) (dot advance : Bool) (r : Run) :
    Keeps e.setup r (takeCueReport e p dot advance r) := by
  unfold takeCueReport
  split
  · have dotted : Steady r (r.modScan p (ScanRec.takeDot dot)) := modScan_steady p (takeDot_cursor dot)
    have counted : ∀ mark : Bool, Keeps e.setup r
        (if mark then countMark e p (r.modScan p (ScanRec.takeDot dot)) else r.modScan p (ScanRec.takeDot dot)) := by
      intro mark
      split
      · exact (Keeps.of_steady dotted).steady (countMark_steady ..)
      · exact .of_steady dotted
    dsimp only
    split
    · exact (counted _).trans (evaluate_keeps ..)
    · exact counted _
  · exact .refl _ _

theorem takeUnreferenced_steady (p : Fin 8) (r : Run) : Steady r (takeUnreferenced e p r) := by
  unfold takeUnreferenced
  split
  · exact .refl _
  · exact endScanHold_steady p fun _ => rfl

/-! ### The Chain Unit at events -/

theorem roleChanged_keeps (was : Vector Role 8) (p : Fin 8) (r : Run) :
    Keeps e.setup r (roleChanged e was r p) := by
  unfold roleChanged
  refine Keeps.calm (.trans (.calm (.refl _ r) ?_) (evaluate_keeps .change p _)) (evaluateRunout_calm _ _ (.refl _))
  split
  · exact .ite (overtakeSwitch_calm _ _ (.refl _)) (.refl _)
  · exact .refl _

theorem workRoles_keeps (r : Run) : Keeps e.setup r (workRoles e r) := by
  unfold workRoles
  dsimp only
  exact ((Keeps.refl _ r).calm (foldl_calm (fun _ p h => recordRole_calm p h) _ (.refl r))).trans
    (foldl_keeps (fun r p => roleChanged_keeps _ p r) _ _)

theorem reactToLoss_steady (c : Fin 4) (p : Fin 8) (keep : Bool) (r : Run) :
    Steady r (reactToLoss e c p keep r) := by
  unfold reactToLoss
  split
  · split
    · split
      · exact .of_calm (changeover_calm _ _ _ _ _ (.refl _))
      · exact (Steady.of_calm (switchToFallback_calm _ _ (.refl _))).trans (strikeRequest_steady ..)
    · exact .of_calm (switchToFallback_calm _ _ (.refl _))
  · exact .refl _

theorem completeHeld_keeps (p : Fin 8) (r : Run) : Keeps e.setup r (completeHeld e r p) := by
  unfold completeHeld
  split
  · exact takeRecord_keeps ..
  · exact .refl _ _

theorem onAirLoss_keeps (c : Fin 4) (p : Fin 8) (r : Run) : Keeps e.setup r (onAirLoss e c p r) := by
  have reacted : ∀ keep r, Keeps e.setup r
      (reactToLoss e c p keep ((portPositions e.setup c).foldl (completeHeld e) r)) := fun keep r =>
    (foldl_keeps (fun r p => completeHeld_keeps p r) _ r).steady (reactToLoss_steady ..)
  unfold onAirLoss
  dsimp only
  refine Keeps.trans ?_ (evaluateBoth_keeps ..)
  split
  · exact (((Keeps.refl _ r).calm (derive_calm _ (clearHold_calm _ (.refl _)))).trans (reacted _ _)).calm
      (evaluateReturn_calm _ _ _ (.refl _))
  · exact reacted _ r

theorem takeFault_keeps (p : Fin 8) (r : Run) : Keeps e.setup r (takeFault e p r) := by
  unfold takeFault
  split
  · split
    · exact onAirLoss_keeps ..
    · exact .refl _ _
  · exact .refl _ _

theorem reapplyLoss_steady (c : Fin 4) (r : Run) : Steady r (reapplyLoss e c r) := by
  unfold reapplyLoss
  split
  · split
    · exact reactToLoss_steady ..
    · exact .refl _
  · exact .refl _

theorem endUnconfirmed_keeps (c : Fin 4) (back r : Run) : Keeps e.setup r (endUnconfirmed e c back r) :=
  ((evaluateBoth_keeps .change c r).steady (reapplyLoss_steady ..)).calm (evaluateReturn_calm _ _ _ (.refl _))

theorem takeMotionChange_keeps (p : Fin 8) (moved : Bool) (r : Run) :
    Keeps e.setup r (takeMotionChange e p moved r) := by
  unfold takeMotionChange
  split
  · exact (((Keeps.refl _ r).calm (rederive_calm _ (.refl _))).trans (workRoles_keeps _)).calm
      (evaluateRunout_calm _ _ (.refl _))
  · exact workRoles_keeps r
  · exact workRoles_keeps r

theorem confirmSwitch_keeps (c : Fin 4) (i : Input) (k : SwitchKind) (r : Run) :
    Keeps e.setup r (confirmSwitch e c i k r) := by
  have cleared := clearSwitch_calm c (queueNotice_calm (e := e)
    (.change c (r.chains.get c).fromInput i k (r.chains.get c).holdSweeps) (setObserved_calm c i (.refl r)))
  have unfit : ∀ {b : Bool} {r'}, Calm r r' → Calm r (if b then switchToFallback e c false r' else r') :=
    fun h => .ite (switchToFallback_calm _ _ h) h
  unfold confirmSwitch
  dsimp only
  refine (((Keeps.refl _ r).calm ?_).trans ((workRoles_keeps _).trans (evaluateBoth_keeps ..))).calm
    (evaluateReturn_calm _ _ _ (.refl _))
  split
  · exact unfit (cleared.modChain ..)
  · exact unfit (derive_calm _ cleared)

theorem abandonSwitch_keeps (c : Fin 4) (i : Input) (r : Run) : Keeps e.setup r (abandonSwitch e c i r) := by
  unfold abandonSwitch
  dsimp only
  exact (((Keeps.refl _ r).calm (derive_calm _ (clearSwitch_calm _ (withdrawSelect_calm _
    (queueNotice_calm _ (setObserved_calm _ _ (.refl _))))))).trans (workRoles_keeps _)).trans
    (endUnconfirmed_keeps ..)

theorem adoptSelection_keeps (c : Fin 4) (i : Input) (r : Run) : Keeps e.setup r (adoptSelection e c i r) := by
  have worked := ((Keeps.refl e.setup r).calm (queueNotice_calm (e := e) (.adopt c i (r.chains.get c).observed none)
    (setObserved_calm c i (.refl r)))).trans (workRoles_keeps _)
  unfold adoptSelection
  dsimp only
  split
  · exact worked.calm (derive_calm _ (.refl _))
  · exact worked

theorem takeMux_keeps (c : Fin 4) (i : Input) (r : Run) : Keeps e.setup r (takeMux e c i r) := by
  unfold takeMux
  dsimp only
  split
  · exact ((Keeps.refl _ r).calm (derive_calm _ (setObserved_calm _ _ (.refl _)))).trans (workRoles_keeps _)
  · split
    · split
      · exact confirmSwitch_keeps ..
      · split
        · exact .refl _ _
        · exact abandonSwitch_keeps ..
    · exact abandonSwitch_keeps ..
  all_goals
    split
    · exact .refl _ _
    · exact adoptSelection_keeps ..

theorem expireSwitch_keeps (c : Fin 4) (r : Run) : Keeps e.setup r (expireSwitch e c r) := by
  unfold expireSwitch
  split
  · exact ((Keeps.refl _ r).calm (derive_calm _ (clearSwitch_calm _ (withdrawSelect_calm _
      (raiseChain_calm _ (.refl _)))))).trans (endUnconfirmed_keeps ..)
  · exact .refl _ _

/-! ### The Rule Unit -/

theorem ruleAct_keeps (p : Fin 8) (i : Fin 16) (r : Run) : Keeps e.setup r (ruleAct e p r i) := by
  unfold ruleAct
  split
  · exact .refl _ _
  · exact (Keeps.refl _ r).calm (queueFor_calm _ _ (.refl _))
  · exact (Keeps.refl _ r).calm (stopAction_calm _ (.refl _))
  · unfold lossAction
    split
    · exact takeFault_keeps ..
    · exact (Keeps.refl _ r).calm (stopAction_calm _ (.refl _))

theorem takeRuleReport_keeps (p : Fin 8) (now : Byte) (j : Motion) (r : Run) :
    Keeps e.setup r (takeRuleReport e p now j r) := by
  have counted := (Keeps.refl e.setup r).calm
    (foldl_calm (f := countRule e p now j) (fun _ i h => countRule_calm p now j i h) allRules (.refl r))
  unfold takeRuleReport
  dsimp only
  split
  · exact counted
  · exact (counted.calm (raiseRule_calm _ _ (.refl _))).trans (foldl_keeps (fun r i => ruleAct_keeps p i r) _ _)

/-! ### Hand-offs -/

theorem takeHandoff_keeps (x : Handoff) (r : Run) : Keeps e.setup r (takeHandoff e x r) := by
  cases x with
  | lampReport p a b => exact .of_steady (.of_lamps (takeLampReport_scans a b) (takeLampReport_strikes a b))
  | lampConditions p => exact .of_steady (.of_lamps workConditions_scans workConditions_strikes)
  | chainMotion p m => exact takeMotionChange_keeps ..
  | chainLampFault p => exact workRoles_keeps r
  | chainFault p => exact takeFault_keeps ..
  | chainAdvance p => exact (Keeps.refl _ r).calm (evaluateRunout_calm _ _ (.refl _))
  | cueUnreferenced p => exact .of_steady (takeUnreferenced_steady ..)
  | cueReport p d a => exact takeCueReport_keeps ..
  | cueEvent p ev => exact evaluate_keeps ..
  | ruleReport p now j => exact takeRuleReport_keeps ..
  | silentDue p => exact (Keeps.refl _ r).calm (becomeSilent_calm _ (.refl _))
  | runupDue p => exact (Keeps.refl _ r).calm (expireRunup_calm _ (.refl _))
  | stopDue p => exact (Keeps.refl _ r).calm (expireStop_calm _ (.refl _))
  | strikeDue p => exact .of_steady (.of_lamps expireStrike_scans expireStrike_strikes)
  | settleDue p =>
    refine .of_steady (.of_lamps ?_ expireSettle_strikes)
    simp only [takeHandoff, expireSettle]
    split <;> rfl
  | gapDue =>
    refine .of_steady (.of_lamps ?_ expireGap_strikes)
    simp only [takeHandoff, expireGap, freeGate]
    split <;> simp
  | dwellDue p =>
    refine .of_steady (.of_lamps ?_ expireDwell_strikes)
    simp only [takeHandoff, expireDwell]
    split <;> simp
  | holdDue c => exact (Keeps.refl _ r).calm (expireHold_calm _ (.refl _))
  | switchDue c => exact expireSwitch_keeps ..

theorem drainFor_keeps (n : Nat) (r : Run) : Keeps e.setup r (drainFor e n r) := by
  induction n generalizing r with
  | zero => exact .refl _ _
  | succ n ih =>
    unfold drainFor
    split
    · exact .refl _ _
    · rename_i x r1 picked
      exact (((Keeps.refl _ r).calm (pickHandoff_calm picked (.refl _))).trans (takeHandoff_keeps x r1)).trans (ih _)

theorem drain_keeps (r : Run) : Keeps e.setup r (drain e r) := drainFor_keeps _ r

end

end Sys2Proof.Machine
end

section
/-! PROOFS. Every command keeps the counts and cursors in range and the strikes sound (O9). -/

namespace Sys2Proof.Machine

/-! ### The length of a cue list (R64) -/

theorem slotRecords_length (su : Setup) (x : Option (Fin 32)) :
    (slotRecords su x).length = if x.isSome then 8 else 0 := by
  cases x with
  | none => rfl
  | some g => exact Vector.length_toList

theorem flatten_slotRecords_length (su : Setup) (l : List (Option (Fin 32))) :
    ((l.map (slotRecords su)).flatten).length = 8 * l.countP Option.isSome := by
  induction l with
  | nil => rfl
  | cons x l ih =>
    rw [List.map_cons, List.flatten_cons, List.length_append, slotRecords_length, ih, List.countP_cons]
    split <;> omega

/-- R64: 8 records for each slot that holds a page. -/
theorem listLength_eq (su : Setup) (p : Fin 8) :
    listLength su p = 8 * (su.reels.get p).slots.toList.countP Option.isSome :=
  flatten_slotRecords_length ..

theorem listLength_congr {su su' : Setup} {p : Fin 8} (h : (su'.reels.get p).slots = (su.reels.get p).slots) :
    listLength su' p = listLength su p := by
  rw [listLength_eq, listLength_eq, h]

/-! ### States -/

/-- A command keeps the cursors in range and the strikes sound. -/
structure StateKeeps (s t : State) : Prop where
  cursors : CursorsInRange s.setup s.run → CursorsInRange t.setup t.run
  strikes : StrikesSound s.run → StrikesSound t.run

theorem StateKeeps.refl (s : State) : StateKeeps s s := ⟨id, id⟩

theorem StateKeeps.trans {s t u : State} (h : StateKeeps s t) (g : StateKeeps t u) : StateKeeps s u :=
  ⟨g.cursors ∘ h.cursors, g.strikes ∘ h.strikes⟩

/-- A command that changes the Loop Port, and the run-time state as `Keeps` says. -/
theorem StateKeeps.of_keeps {s t : State} (setup : t.setup = s.setup) (h : Keeps s.setup s.run t.run) :
    StateKeeps s t :=
  ⟨by rw [setup]; exact h.cursors, h.strikes⟩

theorem act_stateKeeps {s : State} {f : Env → Run → Run} (h : Keeps s.setup s.run (f s.env s.run)) :
    StateKeeps s (s.act f) :=
  .of_keeps rfl (h.trans (drain_keeps (e := s.env) _))

theorem judged_stateKeeps (s : State) : StateKeeps s s.judged := ⟨id, id⟩

theorem event_stateKeeps {s : State} {count f : Env → Run → Run} (due : Env → Run → Bool)
    (h : Keeps s.setup s.run (f s.env (count s.env s.run))) : StateKeeps s (s.event count due f) := by
  unfold State.event
  split
  · exact .of_keeps rfl (h.trans (drain_keeps (e := s.env) _))
  · exact .refl s

/-- A write of the set-up that changes no list's length. -/
theorem StateKeeps.of_setup {s : State} {su : Setup} (h : ∀ p, listLength su p = listLength s.setup p) :
    StateKeeps s { s with setup := su } :=
  ⟨fun g p => by rw [h p]; exact g p, id⟩

/-! ### Orders (R130, R134, R135) -/

section
variable {e : Env} {su : Setup} {r : Run}

theorem dowserCloseTaken_steady (p : Fin 8) (r : Run) : Steady r (dowserCloseTaken p r) :=
  .of_lamps rfl (strikesSound_modLamp_same (fun _ => rfl) (fun _ => rfl) (fun _ => rfl))

theorem handInsertion_steady (x : OrderEntry) (r : Run) : Steady r (handInsertion e x r) := by
  unfold handInsertion atPosition atChain
  split
  · split
    · exact .of_calm (startTaken_calm _ (.refl _))
    · exact .refl _
  · split
    · exact .of_calm (stopTaken_calm _ (.refl _))
    · exact .refl _
  · split
    · exact dowserCloseTaken_steady ..
    · exact .refl _
  · split
    · exact .of_calm (selectInserted_calm _ (.refl _))
    · exact .refl _
  all_goals exact .refl _

theorem insertOrder_steady (x : OrderEntry) (r : Run) : Steady r (insertOrder x e r) :=
  ((Steady.refl r).calm (Calm.orders (r.orders.erase x) (.refl r))).trans (handInsertion_steady ..)

theorem passOrder_steady (d : DeskOrder) (r : Run) : Steady r (passOrder d e r) := by
  refine ((Steady.refl r).calm (Calm.orders (r.orders.filter fun x => !x.holds d.station d.order.family)
    (.refl r))).trans ?_
  show Steady _ (handDeskOrder e d _)
  unfold handDeskOrder
  split
  · exact .of_calm (startTaken_calm _ (.refl _))
  · exact .of_calm (stopTaken_calm _ (.refl _))
  · exact .of_lamps lampDownTaken_scans lampDownTaken_strikes
  · exact dowserCloseTaken_steady ..
  case h_8 => exact .of_calm (deskSelect_calm _ _ (.refl _))
  all_goals exact .refl _

/-! ### The sweep end (R13) -/

theorem countDwell_steady (p : Fin 8) (r : Run) : Steady r (countDwell e p r) :=
  .of_lamps rfl (strikesSound_modLamp_same (fun _ => rfl) (fun _ => rfl) (fun _ => rfl))

theorem countStrike_steady (p : Fin 8) (r : Run) : Steady r (r.modLamp p LampRec.countStrike) :=
  .of_lamps rfl (strikesSound_modLamp_same (fun l => (countStrike_lamp l).1) (fun l => (countStrike_lamp l).2.1)
    (fun l => (countStrike_lamp l).2.2))

theorem countSettle_steady (p : Fin 8) (r : Run) : Steady r (r.modLamp p LampRec.countSettle) :=
  .of_lamps rfl (strikesSound_modLamp_same (fun l => (countSettle_lamp l).1) (fun l => (countSettle_lamp l).2.1)
    (fun l => (countSettle_lamp l).2.2))

theorem countPosition_steady (v : Vector Bool 8) (p : Fin 8) (r : Run) : Steady r (countPosition e v r p) := by
  have lamps : Steady (countDwell e p r) ((countDwell e p r).modLamp p (fun l => l.countStrike.countSettle)) := by
    refine .of_lamps rfl (strikesSound_modLamp_same (fun l => ?_) (fun l => ?_) (fun l => ?_))
    · exact (countSettle_lamp _).1.trans (countStrike_lamp l).1
    · exact (countSettle_lamp _).2.1.trans (countStrike_lamp l).2.1
    · exact (countSettle_lamp _).2.2.trans (countStrike_lamp l).2.2
  unfold countPosition
  dsimp only
  exact ((countDwell_steady p r).trans lamps).calm (Calm.modMotion p _ (.refl _))

theorem countGap_scans {r : Run} : (countGap r).scans = r.scans := by
  unfold countGap
  split <;> rfl

theorem sweepEnd_keeps (v : Vector Bool 8) (r : Run) : Keeps su r (sweepEnd e v r) := by
  have positions : Keeps su r (allPositions.foldl (countPosition e v) r) :=
    foldl_keeps (fun r p => .of_steady (countPosition_steady v p r)) _ r
  have chains := positions.calm (foldl_calm (f := countChain e) (fun _ c h => countSwitch_calm c (countHold_calm c h))
    allChains (.refl _))
  have gap : Keeps su r (countSweep e v r) := chains.steady (.of_lamps countGap_scans countGap_strikes)
  exact gap.calm (Calm.handAll _ (.refl _))

/-! ### The ladder and the notices -/

theorem renotice_calm (a b : Run) (k : Fin 82) {r0 : Run} (h : Calm r0 r) : Calm r0 (renotice a b r k) := by
  unfold renotice
  split
  · exact h.trans ⟨rfl, rfl, rfl, rfl⟩
  · exact h

theorem releaseSlot_calm (k : Fin 82) (rest : List (Fin 82)) (r : Run) : Calm r (releaseSlot k rest r) :=
  foldl_calm (fun _ j h => renotice_calm _ _ j h) _
    (Calm.trans (r := { r.modSlot k (fun x => { x with underService := false }) with stack := rest })
      ⟨rfl, rfl, rfl, rfl⟩ (.refl _))

/-! ### Redefinitions and placements (R23, R46, R68, R72, R75, R123, R124) -/

theorem restartLamp_scans (p : Fin 8) (r : Run) : (restartLamp e p r).scans = r.scans := by
  unfold restartLamp
  simp

theorem redefinePosition_keeps (p : Fin 8) (old new : Option PosDef) (r : Run) :
    Keeps e.setup r (redefinePosition p old new e r) := by
  have cleared : Calm r (((restartMotion p r).setRunoutRaised p false).setTailStopped p false) :=
    ((Calm.modMotion p _ (.refl r)).setRunoutRaised ..).setTailStopped ..
  have restarted : Keeps e.setup r (clearCountersOf p (restartLamp e p (endScanHold e p (fun _ => ScanRec.restarted)
      (((restartMotion p r).setRunoutRaised p false).setTailStopped p false)))) :=
    ((((Keeps.refl _ r).calm cleared).trans (endScanHold_keeps p (Nat.zero_le _))).steady
      (.of_lamps (restartLamp_scans p _) restartLamp_strikes)).calm (Calm.counters _ (.refl _))
  have withdrawn : ∀ r, Calm r (withdrawOld old new r) := by
    intro r
    unfold withdrawOld
    split
    · exact .refl _
    · exact .ite (.refl _) (Calm.orders _ (.refl _))
  exact (restarted.calm (withdrawn _)).trans (workRoles_keeps _)

theorem redefineChain_keeps (c : Fin 4) (old new : Option ChainDef) (r : Run) :
    Keeps e.setup r (redefineChain c old new e r) := by
  have cleared := foldl_calm (f := clearRunoutFlags)
    (fun _ p h => (h.setRunoutRaised p false).setTailStopped p false) (chainPositions old ++ chainPositions new)
    (Calm.modChain c (fun _ => ChainRec.restarted) (.refl r))
  unfold redefineChain
  dsimp only
  split
  · exact ((Keeps.refl _ r).calm (cleared.orders _)).trans (workRoles_keeps _)
  · exact ((Keeps.refl _ r).calm cleared).trans (workRoles_keeps _)

theorem changeMode_keeps (c : Fin 4) (old new : ChainMode) (r : Run) :
    Keeps e.setup r (changeMode c old new e r) := by
  have disarmed : Keeps e.setup r (if old.armed && !new.armed then evaluateBoth e .change c r else r) :=
    .ite (evaluateBoth_keeps ..) (.refl _ _)
  have evaluated := Keeps.ite (c := (old.runoutGuard != new.runoutGuard || old.fallback != new.fallback) = true)
    (disarmed.calm (evaluatePorts_calm (e := e) false c (.refl _))) disarmed
  exact .ite (evaluated.steady (reapplyLoss_steady ..)) evaluated

theorem cursorRewritten_steady (g : Fin 32) (w : Fin 8 → Bool) (r : Run) : Steady r (cursorRewritten g w e r) := by
  unfold cursorRewritten
  split
  · exact .refl _
  · split
    · exact endScanHold_steady _ fun _ => rfl
    · exact .refl _

theorem remapped_keeps (p : Fin 8) (r : Run) : Keeps su r (remapped p e r) :=
  endScanHold_keeps p (Nat.zero_le _)

theorem placeCursor_le (su : Setup) (p : Fin 8) (v : Int) : placeCursor su p v ≤ listLength su p :=
  List.findIdx_le_length

theorem placePosition_keeps (p : Fin 8) (v : Int) (r : Run) : Keeps e.setup r (placePosition p v e r) := by
  have placed : Keeps e.setup r (endScanHold e p (ScanRec.placed (placeCursor e.setup p v))
      (r.modMotion p (fun m => { m with value := v, referenced := true }))) :=
    ((Keeps.refl _ r).calm (Calm.modMotion _ _ (.refl _))).trans (endScanHold_keeps p (placeCursor_le ..))
  unfold placePosition
  dsimp only
  refine Keeps.calm ?_ (evaluateRunout_calm _ _ (.refl _))
  split
  · exact placed
  · exact placed.steady (.of_lamps workConditions_scans workConditions_strikes)

end

/-! ### Requests -/

theorem act_stateKeeps_of_setup {s : State} {su : Setup} {f : Env → Run → Run}
    (same : ∀ p, listLength su p = listLength s.setup p)
    (h : Keeps ({ s with setup := su } : State).env.setup s.run (f ({ s with setup := su } : State).env s.run)) :
    StateKeeps s (({ s with setup := su } : State).act f) :=
  (StateKeeps.of_setup same).trans (act_stateKeeps h)

/-- R72: a remap places the cursor of the reel whose list it changes. -/
theorem remap_stateKeeps (p : Fin 8) (k : Fin 4) (g : Option (Fin 32)) (s : State) :
    StateKeeps s (({ s with setup := setSlot s.setup p k g } : State).act (remapped p)) := by
  have other : ∀ q, q ≠ p → listLength (setSlot s.setup p k g) q = listLength s.setup q := fun q hq =>
    listLength_congr (by unfold setSlot; dsimp only; rw [get_set_fin, if_neg (Ne.symm hq)])
  have held := afterHold_calm (e := ({ s with setup := setSlot s.setup p k g } : State).env) p
    (s.run.scans.get p).hold (s.run.modScan p (ScanRec.placed 0))
  refine StateKeeps.trans (t := { s with setup := setSlot s.setup p k g, run := s.run.modScan p (ScanRec.placed 0) })
    ⟨fun h q => ?_, modScan_strikes _ _⟩
    (.of_keeps rfl (((Keeps.refl _ _).calm held).trans
      (drain_keeps (e := ({ s with setup := setSlot s.setup p k g } : State).env) _)))
  show ((s.run.modScan p (ScanRec.placed 0)).scans.get q).cursor ≤ listLength (setSlot s.setup p k g) q
  rw [Run.modScan_get]
  split
  · exact Nat.zero_le _
  · rename_i hq
    rw [other q (Ne.symm hq)]
    exact h q

theorem carryOut_stateKeeps (q : Request) (s : State) : StateKeeps s (carryOut q s).state := by
  have same : ∀ {t : State}, t = s → StateKeeps s t := fun h => h ▸ .refl s
  cases q
  case definePosition =>
    simp only [carryOut, reqDefinePosition]
    repeat' split
    all_goals first | exact .refl s | exact act_stateKeeps_of_setup (fun _ => rfl) (redefinePosition_keeps ..)
  case readPosition => exact same (reqReadPosition_run ..)
  case defineChain =>
    simp only [carryOut, reqDefineChain]
    repeat' split
    all_goals first | exact .refl s | exact act_stateKeeps_of_setup (fun _ => rfl) (redefineChain_keeps ..)
  case setChainMode =>
    simp only [carryOut, reqSetChainMode]
    split
    · exact act_stateKeeps_of_setup (fun _ => rfl) (changeMode_keeps ..)
    · exact .refl s
  case readChain => exact same (reqReadChain_run ..)
  case loadCue =>
    simp only [carryOut, reqLoadCue, writeCue]
    split
    · exact .refl s
    · split
      · exact .refl s
      all_goals
        exact act_stateKeeps_of_setup (fun _ => listLength_congr rfl) (.of_steady (cursorRewritten_steady ..))
  case readCue => exact same (reqReadCue_run ..)
  case clearPage =>
    simp only [carryOut, reqClearPage]
    split
    · exact .refl s
    · split
      · exact .refl s
      · exact act_stateKeeps_of_setup (fun _ => listLength_congr rfl) (.of_steady (cursorRewritten_steady ..))
  case mapPage =>
    simp only [carryOut, reqMapPage]
    repeat' split
    all_goals first | exact .refl s | exact remap_stateKeeps ..
  case setReel =>
    simp only [carryOut, reqSetReel]
    split
    · split
      · exact .refl s
      · exact act_stateKeeps_of_setup (f := fun e r => evaluateRunout e false _ r)
          (fun q => listLength_congr (setLastPicture_slots ..)) ((Keeps.refl _ _).calm (evaluateRunout_calm _ _ (.refl _)))
    · exact .refl s
  case readReel => exact same (reqReadReel_run ..)
  case setPosition =>
    simp only [carryOut, reqSetPosition]
    repeat' split
    all_goals first | exact .refl s | exact act_stateKeeps (placePosition_keeps (e := s.env) ..)
  case restartCues =>
    simp only [carryOut, reqRestartCues]
    repeat' split
    all_goals first | exact .refl s | exact act_stateKeeps (remapped_keeps ..)
  case setScreen =>
    simp only [carryOut, reqSetScreen]
    split
    · exact .of_setup fun _ => rfl
    · exact .refl s
  case readScreen => exact same (reqReadScreen_run ..)
  case setRule =>
    simp only [carryOut, reqSetRule]
    split
    · exact ⟨id, id⟩
    · exact .refl s
  case readRule => exact same (reqReadRule_run ..)
  case takeAlarm =>
    simp only [carryOut, reqTakeAlarm]
    split
    · exact .refl s
    · exact .of_keeps rfl ((Keeps.refl _ _).calm ⟨rfl, rfl, rfl, rfl⟩)
  case releaseAlarm =>
    simp only [carryOut, reqReleaseAlarm]
    split
    · exact .refl s
    · exact .of_keeps rfl ((Keeps.refl _ _).calm (releaseSlot_calm ..))
  case setAlarmEnables =>
    simp only [carryOut, reqSetAlarmEnables]
    split
    · exact .refl s
    · exact .of_setup fun _ => rfl
  case readAlarms => exact same (reqReadAlarms_run ..)
  case setParam =>
    simp only [carryOut, reqSetParam]
    split
    · exact .refl s
    · split
      · exact .refl s
      · exact .of_setup fun _ => rfl
  case readParam => exact same (reqReadParam_run ..)
  case resetPart => exact ⟨fun _ _ => warmReset_cursorsInRange .., fun _ => warmReset_strikesSound _⟩

theorem answerManage_stateKeeps (m : Payload) (s : State) : StateKeeps s (answerManage m s).state := by
  unfold answerManage
  split
  · exact carryOut_stateKeeps ..
  · exact .refl s

/-! ### Cells -/

theorem takeHead_stateKeeps (m : Payload) (s : State) : StateKeeps s (takeHead m s) := by
  unfold takeHead
  dsimp only
  split
  · exact .of_keeps rfl ((Keeps.refl _ _).calm (regain_calm (.refl _)))
  · exact ⟨id, id⟩

theorem offerOrder_stateKeeps (v : Cell) (s : State) : StateKeeps s (offerOrder v s).state := by
  unfold offerOrder
  split
  · exact act_stateKeeps (.of_steady (insertOrder_steady ..))
  · exact .refl s

theorem takeDeskOrder_stateKeeps (c : Cell) (d : DeskOrder) (s : State) :
    StateKeeps s (takeDeskOrder c d s).state := by
  unfold takeDeskOrder
  split
  · exact (act_stateKeeps ((Keeps.refl _ _).calm (queueNotice_calm _ (.refl _)))).trans (offerOrder_stateKeeps ..)
  · exact (act_stateKeeps (.of_steady (strikeRequest_steady ..))).trans (offerOrder_stateKeeps ..)
  · exact act_stateKeeps (.of_steady (passOrder_steady ..))

theorem takeState_stateKeeps (c : Cell) (s : State) : StateKeeps s (takeState c s) := by
  unfold takeState
  split
  · rename_i p _
    split
    · exact .refl s
    · exact StateKeeps.trans (t := { s with port := { s.port with
          reportedPositions := s.port.reportedPositions.set p true } }) ⟨id, id⟩
        (act_stateKeeps ((Keeps.refl _ _).calm (takeReport_calm _ _ _ (.refl _))))
  · exact .refl s

theorem takeMuxCell_stateKeeps (c : Cell) (s : State) : StateKeeps s (takeMuxCell c s) := by
  unfold takeMuxCell
  split
  · rename_i k i _ _
    split
    · exact .refl s
    · exact StateKeeps.trans (t := { s with port := { s.port with
          reportedChains := s.port.reportedChains.set k true } }) ⟨id, id⟩ (act_stateKeeps (takeMux_keeps (e := s.env) ..))
  · exact .refl s

theorem offerNotice_stateKeeps (v : Cell) (s : State) : StateKeeps s (offerNotice v s).state := by
  unfold offerNotice
  split
  · exact ⟨id, id⟩
  · split
    · exact ⟨id, id⟩
    · exact .refl s

theorem takeTail_stateKeeps (s : State) : StateKeeps s (takeTail s) :=
  (act_stateKeeps (f := fun e r => sweepEnd e s.port.reportedPositions r) (sweepEnd_keeps ..)).trans ⟨id, id⟩

theorem passage_stateKeeps (l : Leg) (c : Cell) (s : State) : StateKeeps s (passage l c s).state := by
  unfold passage
  split
  · exact .refl s
  · split
    · rename_i k _
      unfold takeCell
      split
      · split
        · cases k
          case head => exact takeHead_stateKeeps ..
          case manage =>
            unfold takeOutbound takeManage
            dsimp only
            split
            · exact answerManage_stateKeeps ..
            · exact .refl s
          case order =>
            unfold takeOutbound takeOrder
            dsimp only
            split
            · exact takeDeskOrder_stateKeeps ..
            · exact .refl s
          case void => exact offerOrder_stateKeeps ..
          all_goals exact .refl s
        · cases k
          case state => exact takeState_stateKeeps ..
          case mux => exact takeMuxCell_stateKeeps ..
          case void => exact offerNotice_stateKeeps ..
          case tail => exact takeTail_stateKeeps s
          all_goals exact .refl s
      · unfold takeUnlocked
        split
        · exact takeHead_stateKeeps ..
        · exact .refl s
    · exact .refl s

theorem receive_stateKeeps (l : Leg) (c : Cell) (s : State) : StateKeeps s (receive l c s) := by
  unfold receive
  dsimp only
  split
  · exact (passage_stateKeeps l c s).trans ⟨id, id⟩
  · exact ⟨id, id⟩

/-! ### Events and resets -/

theorem loseLoop_stateKeeps (s : State) : StateKeeps s (loseLoop s) :=
  .of_keeps rfl ((Keeps.refl _ _).calm (raiseChain_calm (e := s.env) _ (.refl _)))

theorem exec_stateKeeps {i : Instr} {s t : State} (h : exec i s = .next t) : StateKeeps s t := by
  have start : Keeps s.setup s.run s.run := .refl _ _
  cases i <;> obtain rfl := Host.Outcome.next.inj h
  case missCountSilent p =>
    exact event_stateKeeps _ (start.calm (becomeSilent_calm _ (Calm.modMotion _ _ (.refl _))))
  case runupExpiry p => exact event_stateKeeps _ (start.calm (expireRunup_calm _ (Calm.modMotion _ _ (.refl _))))
  case stopExpiry p => exact event_stateKeeps _ (start.calm (expireStop_calm _ (Calm.modMotion _ _ (.refl _))))
  case stallFlag => exact event_stateKeeps _ (start.calm (countStall_calm _ (.refl _)))
  case stallBreak => exact event_stateKeeps _ (start.calm (handIfChanged_calm _ _ (countStall_calm _ (.refl _))))
  case markRecognised => exact event_stateKeeps _ (takeCueReport_keeps (e := s.env) ..)
  case settleExpiry p =>
    exact event_stateKeeps _ ((start.steady (countSettle_steady p _)).trans
      (takeHandoff_keeps (e := s.env) (.settleDue p) _))
  case strikeExpiry p =>
    exact event_stateKeeps _ ((start.steady (countStrike_steady p _)).trans
      (takeHandoff_keeps (e := s.env) (.strikeDue p) _))
  case staggerGapExpiry =>
    exact event_stateKeeps _ ((start.steady (.of_lamps countGap_scans countGap_strikes)).trans
      (takeHandoff_keeps (e := s.env) .gapDue _))
  case strikeGrant => exact event_stateKeeps _ (start.steady (.of_lamps offerGrant_scans offerGrant_strikes))
  case dwellExpiry p =>
    exact event_stateKeeps _ ((start.steady (countDwell_steady p _)).trans
      (takeHandoff_keeps (e := s.env) (.dwellDue p) _))
  case holdExpiry => exact event_stateKeeps _ (start.calm (expireHold_calm _ (countHold_calm _ (.refl _))))
  case switchExpiry c =>
    exact event_stateKeeps _ ((start.calm (countSwitch_calm c (.refl _))).trans (expireSwitch_keeps (e := s.env) ..))
  case ruleFire => exact event_stateKeeps _ (takeRuleReport_keeps (e := s.env) ..)
  case silenceTimerExpiry =>
    unfold silenceExpires
    split
    · exact loseLoop_stateKeeps s
    · exact .refl s
  case resetAssert => exact ⟨id, id⟩
  case resetRelease =>
    unfold resetReleased
    dsimp only
    split
    · exact ⟨fun _ _ => warmReset_cursorsInRange .., fun _ => warmReset_strikesSound _⟩
    · exact ⟨id, id⟩
  case powerOn | lossOfSupply => exact ⟨fun _ _ => warmReset_cursorsInRange .., fun _ => warmReset_strikesSound _⟩
  all_goals exact receive_stateKeeps ..

theorem clockCycle_stateKeeps (s : State) : StateKeeps s (clockCycle s) := by
  unfold clockCycle
  split
  · split
    · split
      · exact loseLoop_stateKeeps s
      · exact ⟨id, id⟩
    · exact .refl s
  · exact .refl s

theorem step_stateKeeps {s t : State} (h : step s = .next t) : StateKeeps s t := by
  obtain ⟨i, rest, _, hx⟩ | ⟨_, rfl⟩ := step_cases h
  · exact StateKeeps.trans (t := { s with pending := rest }) ⟨id, id⟩ (exec_stateKeeps hx)
  · exact clockCycle_stateKeeps s

/-! ### Counts (R27, R41, R98, R99) -/

theorem releaseSlot_motions (k : Fin 82) (rest : List (Fin 82)) (r : Run) :
    (releaseSlot k rest r).motions = r.motions := by
  have hfold : ∀ (a b : Run) (l : List (Fin 82)) (x : Run), (l.foldl (renotice a b) x).motions = x.motions := by
    intro a b l
    induction l with
    | nil => exact fun _ => rfl
    | cons j l ih =>
      intro x
      refine (ih _).trans ?_
      unfold renotice
      split <;> rfl
  exact hfold _ _ _ _

theorem RunMove.countsInRange {r r' : Run} (h : RunMove r r') (h0 : CountsInRange r) : CountsInRange r' := by
  cases h with
  | acts e h => exact h.countsInRange h0
  | noted | written | taken => exact h0
  | released k rest =>
    intro p
    rw [releaseSlot_motions, (releaseSlot_calm k rest r).scans]
    exact h0 p
  | reset => exact warmReset_countsInRange r

end Sys2Proof.Machine

namespace Sys2Proof.Proofs

open Sys2Proof.Machine

/-- Settles O9: the ranges by `Acts.countsInRange`; the cursors and the strikes by `StateKeeps`; a queue with no position
twice holds at most eight entries. -/
theorem countsKept : Obligations.CountsKept := by
  intro s t hs
  have kept := step_stateKeeps hs
  refine ⟨(runMove_of_step hs).countsInRange, kept.cursors, fun h => ⟨kept.strikes h, ?_⟩⟩
  have bound := length_le_of_nodup (kept.strikes h).1
  rwa [List.length_map] at bound

end Sys2Proof.Proofs
end

section
/-! PROOFS. RESET PART, the rules, the alarms and their enables (O19, O24, O25, O26). -/

namespace Sys2Proof.Machine

/-! ### A request row that changes the state, by its code -/

/-- A request answered DONE by the state `u`: the REPLY, and the contact judged anew (R160). -/
theorem coded_answered {s u : State} (ha : s.acting) {m : Payload} {n : Nat} {tag : Byte} {d : Vector Byte 10}
    (answered : answerManage m s = answerDone d u) (port : u.port = s.port := by rfl) (code : m[0].toNat = n := by rfl)
    (tagged : m[1] = tag := by rfl) (owned : 1 ≤ n ∧ n ≤ 24 := by decide) :
    ∃ t, request m s = .next t
      ∧ t.port = { s.port with loopOut := some (s.replyCell n tag 0 d), contact := t.port.contact }
      ∧ t.contactRight ∧ t.setup = u.setup ∧ t.pending = u.pending ∧ t.run = u.run := by
  subst code tagged
  refine ⟨_, request_acting ha m, ?_, rfl, ?_⟩ <;> rw [answered, replyCell_eq m s _ owned.1 owned.2]
  · show ({ u.port with loopOut := _, contact := _ } : LoopPort) = _
    rw [port]
    rfl
  · exact ⟨rfl, rfl, rfl⟩

/-! ### RESET PART (R169) -/

theorem majorStands_warmReset (r : Run) : majorStands r.warmReset = false := by
  unfold majorStands
  rw [List.any_eq_false]
  intro k _
  have slot : r.warmReset.slots.get k = Slot.cleared := Vector.getElem_replicate k.isLt
  rw [slot]
  simp [Slot.cleared]

theorem contactAsserted_warmReset {p : LoopPort} (hm : p.monitor ≠ .lost) (r : Run) :
    contactAsserted p r.warmReset = false := by
  simp [contactAsserted, majorStands_warmReset, hm]

/-! ### SET RULE and READ RULE (R147, R148) -/

theorem Qualifier.ofCode_code (q : Qualifier) : Qualifier.ofCode q.code = some q := by cases q <;> rfl

theorem RuleAction.ofCode_code (a : RuleAction) : RuleAction.ofCode a.code = a := by cases a <;> rfl

theorem readRuleRecord_of_codes {x : Vector Byte 5} {q : Qualifier} {a : RuleAction}
    (hq : ((x[0] >>> 1) &&& 3).toNat = q.code) (ha : ((x[0] >>> 4) &&& 3).toNat = a.code) (low : 1 ≤ x[4].toNat)
    (high : x[4].toNat ≤ 8) (masked : x[0].getLsbD 0 = true → x[2] ≠ 0) :
    readRuleRecord x = some {
      active := x[0].getLsbD 0, positions := x[1], qualifier := q, mask := x[2], values := x[3] &&& x[2]
      persistence := x[4].toNat, severity := if x[0].getLsbD 3 then .major else .minor, action := a } := by
  have in_range : ¬ (x[4].toNat < 1 ∨ 8 < x[4].toNat) := by omega
  have has_mask : ¬ (x[0].getLsbD 0 && x[2] == 0) = true := by
    rw [Bool.and_eq_true, beq_iff_eq]
    exact fun ⟨active, empty⟩ => masked active empty
  unfold readRuleRecord
  dsimp only
  rw [hq, ha, Qualifier.ofCode_code, RuleAction.ofCode_code]
  dsimp only
  rw [if_neg in_range, if_neg has_mask]

theorem readRuleRecord_eq_none {x : Vector Byte 5}
    (h : ((x[0] >>> 1) &&& 3).toNat = 3 ∨ x[4].toNat < 1 ∨ 8 < x[4].toNat ∨ (x[0].getLsbD 0 = true ∧ x[2] = 0)) :
    readRuleRecord x = none := by
  unfold readRuleRecord
  dsimp only
  split
  · rfl
  · rename_i q hq
    have listed : ((x[0] >>> 1) &&& 3).toNat ≠ 3 := fun h3 => by rw [h3] at hq; cases hq
    split
    · rfl
    · rename_i in_range
      have empty : x[0].getLsbD 0 = true ∧ x[2] = 0 := by
        rcases h with h | h | h | h
        · exact absurd h listed
        · exact absurd (.inl h) in_range
        · exact absurd (.inr h) in_range
        · exact h
      rw [if_pos (by rw [empty.1, empty.2]; rfl)]

theorem bitOf_zero (b : Bool) : bitOf b 0 = if b then 1 else 0 := by cases b <;> rfl

theorem bitOf_severity (x : Severity) : bitOf x.bit 3 = if x = .major then 8 else 0 := by cases x <;> rfl

/-- The first octet of a rule record as R148 gives it. -/
theorem ruleOctet0_eq (x : Rule) :
    ruleOctet0 x = (if x.active then 1 else 0) ||| BitVec.ofNat 8 (2 * x.qualifier.code)
      ||| (if x.severity = .major then 8 else 0) ||| BitVec.ofNat 8 (16 * x.action.code) := by
  unfold ruleOctet0
  rw [bitOf_zero, bitOf_severity]
  rfl

theorem reqSetRule_done {rule : Byte} {x : Vector Byte 5} {i : Fin 16} {y : Rule} (s : State) (hi : indexOf 16 rule = some i)
    (hy : readRuleRecord x = some y) :
    reqSetRule rule x s = answerDone data10
      { s with setup := { s.setup with rules := s.setup.rules.set i y }, run := clearRuleCounters i s.run } := by
  unfold reqSetRule
  rw [hi, hy]

theorem reqSetRule_refused {rule : Byte} {x : Vector Byte 5} (s : State)
    (h : indexOf 16 rule = none ∨ readRuleRecord x = none) : reqSetRule rule x s = refuse .range s := by
  unfold reqSetRule
  split
  · rename_i hi hy
    rcases h with h | h
    · rw [h] at hi; cases hi
    · rw [h] at hy; cases hy
  · rfl

theorem answerManage_setRule (tag rule : Byte) (x : Vector Byte 5) (s : State) :
    answerManage (payload13 16 tag rule x[0] x[1] x[2] x[3] x[4]) s = reqSetRule rule x s := by
  have record : #v[x[0], x[1], x[2], x[3], x[4]] = x := by
    apply Vector.ext
    intro i hi
    match i with
    | 0 | 1 | 2 | 3 | 4 => rfl
  show reqSetRule rule #v[x[0], x[1], x[2], x[3], x[4]] s = _
  rw [record]

/-- The data of a READ RULE reply. -/
def ruleView (s : State) (i : Fin 16) : Vector Byte 10 :=
  let x := s.setup.rules.get i
  let n := s.run.counters.get i
  data10 (ruleOctet0 x) x.positions x.mask x.values (byteOf x.persistence) (counterPair n[0] n[1])
    (counterPair n[2] n[3]) (counterPair n[4] n[5]) (counterPair n[6] n[7])

theorem reqReadRule_reads {rule : Byte} {i : Fin 16} (h : rule.toNat = i.val) (s : State) :
    reqReadRule rule s = answerDone (ruleView s i) s := by
  unfold reqReadRule
  rw [indexOf_eq_some.2 h]
  rfl

/-- The contact looks at no counter. -/
theorem clearRuleCounters_contactRight {s : State} (hr : s.contactRight) (i : Fin 16) (su : Setup) :
    ({ s with setup := su, run := clearRuleCounters i s.run } : State).contactRight := hr

/-! ### SET ALARM ENABLES and READ ALARMS (R152, R157) -/

/-- Bit i of a packed list is its i-th. -/
theorem bitsOf_testBit (l : List Bool) (i : Nat) : (bitsOf l).testBit i = l.getD i false := by
  induction l generalizing i with
  | nil => simp [bitsOf]
  | cons b l ih =>
    cases i with
    | zero => cases b <;> simp [bitsOf, Nat.testBit_zero]
    | succ i =>
      have half : (bitsOf (b :: l)) / 2 = bitsOf l := by
        rw [bitsOf]
        split <;> omega
      rw [Nat.testBit_succ, half, ih]
      rfl

theorem bitsOf_getLsbD {w : Nat} (l : List Bool) {i : Nat} (hi : i < w) :
    (BitVec.ofNat w (bitsOf l)).getLsbD i = l.getD i false := by
  rw [BitVec.getLsbD_ofNat, bitsOf_testBit, decide_eq_true hi, Bool.true_and]

/-- Three octets of a number are its 24 bits. -/
theorem octets24 (v : Int) : (hi24 v ++ mid24 v ++ lo24 v : BitVec 24) = BitVec.ofInt 24 v := by
  unfold hi24 mid24 lo24
  rw [BitVec.extractLsb'_append_extractLsb'_eq_extractLsb' (by omega),
    BitVec.extractLsb'_append_extractLsb'_eq_extractLsb' (by omega)]
  exact BitVec.extractLsb'_eq_self

theorem bitsOf_octets24 (l : List Bool) {i : Nat} (hi : i < 24) :
    (hi24 (bitsOf l) ++ mid24 (bitsOf l) ++ lo24 (bitsOf l) : BitVec 24).getLsbD i = l.getD i false := by
  rw [octets24, BitVec.ofInt_natCast, bitsOf_getLsbD l hi]

theorem enableBits_getLsbD (su : Setup) {n : Nat} (h : n < 16) :
    (enableBits su).getLsbD n = if hn : n < 14 then su.enables.get ⟨n, hn⟩ else false := by
  unfold enableBits
  rw [bitsOf_getLsbD _ h]
  split
  · rename_i hn
    rw [getD_of_lt (by simpa using hn)]
    rfl
  · rename_i hn
    exact getD_of_length_le (by simpa using hn)

theorem changeEnables_get (on : Bool) (mask : BitVec 16) (en : Vector Bool 14) (n : Fin 14) :
    (changeEnables on mask en).get n = if mask.getLsbD n then on else en.get n := by
  unfold changeEnables
  exact Vector.getElem_mapIdx ..

theorem answerManage_setAlarmEnables (tag mode : Byte) (mask : BitVec 16) (s : State) :
    answerManage (payload13 20 tag mode (hi16 mask) (lo16 mask)) s = reqSetAlarmEnables mode mask s := by
  show reqSetAlarmEnables mode (read16 (hi16 mask) (lo16 mask)) s = _
  rw [read16_hi_lo]

/-- A slot's flag among the slots of a run of 82. -/
theorem slots_getD (f : Fin 82 → Bool) (a n i : Nat) (hi : i < n) (k : Fin 82) (hk : k.val = a + i) :
    (((allSlots.drop a).take n).map f).getD i false = f k := by
  have length : i < ((allSlots.drop a).take n).length := by
    simp only [allSlots, List.length_take, List.length_drop, List.length_finRange]
    omega
  rw [getD_of_lt (by simpa using length)]
  simp only [List.getElem_map, List.getElem_take, List.getElem_drop, allSlots, List.getElem_finRange]
  exact congrArg f (Fin.ext hk.symm)

theorem areaSlots_getD (f : Fin 82 → Bool) (k : Fin 82) (hk : k.val < 18) :
    (areaSlots.map f).getD k.val false = f k :=
  slots_getD f 0 18 k.val hk k (Nat.zero_add _).symm

theorem positionSlots_getD (f : Fin 82 → Bool) (p j : Fin 8) (k : Fin 82) (hk : k.val = 18 + 8 * p.val + j.val) :
    ((positionSlots p).map f).getD j.val false = f k :=
  slots_getD f (18 + 8 * p.val) 8 j.val j.isLt k hk

theorem enables_take_getD (en : Vector Bool 14) (n : Fin 14) (hn : n.val < 6) :
    (en.toList.take 6).getD n.val false = en.get n := by
  rw [getD_of_lt (by simp; omega), List.getElem_take]
  rfl

theorem enables_drop_getD (en : Vector Bool 14) (n : Fin 14) (j : Fin 8) (hn : n.val = 6 + j.val) :
    (en.toList.drop 6).getD j.val false = en.get n := by
  rw [getD_of_lt (by simp), List.getElem_drop]
  exact congrArg en.get (a₁ := ⟨6 + j.val, by omega⟩) (Fin.ext hn.symm)

theorem reqReadAlarms_area (position : Byte) (s : State) : reqReadAlarms 0 position s = answerDone (areaView s) s := rfl

theorem reqReadAlarms_position {position : Byte} {p : Fin 8} (h : position.toNat = p.val) (s : State) :
    reqReadAlarms 1 position s = answerDone (positionView s p) s := by
  unfold reqReadAlarms
  rw [if_neg (by decide), if_pos rfl, indexOf_eq_some.2 h]

theorem reqReadAlarms_refused {group position : Byte} (h : 1 < group.toNat ∨ (group = 1 ∧ 7 < position.toNat)) (s : State) :
    reqReadAlarms group position s = refuse .range s := by
  have not_area : group ≠ 0 := by rintro rfl; rcases h with h | ⟨h, _⟩ <;> exact absurd h (by decide)
  unfold reqReadAlarms
  rw [if_neg not_area]
  split
  · rename_i e
    have above : 8 ≤ position.toNat := by
      rcases h with h | ⟨_, h⟩
      · rw [e] at h; exact absurd h (by decide)
      · omega
    rw [indexOf_eq_none.2 above]
  · rfl

/-! ### TAKE ALARM and RELEASE ALARM (R155, R156) -/

theorem find_allSlots_le {f : Fin 82 → Bool} {j k : Fin 82} (h : allSlots.find? f = some j) (hk : f k = true) : j ≤ k := by
  obtain ⟨_, i, hi, rfl, before⟩ := List.find?_eq_some_iff_getElem.1 h
  refine Classical.byContradiction fun below => ?_
  have no := before k.val (Nat.lt_of_not_le fun h => below (by simpa [allSlots, Fin.le_def] using h))
  simp [allSlots, hk] at no

/-- R155: the slot that meets the condition and ranks above every other such slot. -/
theorem highest_of_outranks {r : Run} {f : Fin 82 → Bool} {k : Fin 82} (hk : f k = true)
    (above : ∀ j, f j = true → j ≠ k → ranksAbove r k j = true) : highest r f = some k := by
  have someone : ∃ j, highest r f = some j := by
    unfold highest
    split
    · exact ⟨_, rfl⟩
    · cases found : allSlots.find? f with
      | none => exact absurd hk (List.find?_eq_none.1 found k (List.mem_finRange k))
      | some j => exact ⟨j, rfl⟩
  obtain ⟨j, hj⟩ := someone
  by_cases same : j = k
  · rw [hj, same]
  · have outranks := above j (highest_meets hj) same
    unfold ranksAbove at outranks
    unfold highest at hj
    exfalso
    split at hj
    · rename_i i first
      obtain rfl := Option.some.inj hj
      have major : severityOf r i = .major := by
        have meets := List.find?_some first
        simp only [Bool.and_eq_true, beq_iff_eq] at meets
        exact meets.2
      cases hs : severityOf r k with
      | minor => simp [hs, major] at outranks
      | major =>
        simp only [hs, major, decide_eq_true_eq] at outranks
        exact absurd outranks (Nat.not_lt.2 (find_allSlots_le first (by simp [hk, hs])))
    · rename_i none_major
      have minor : severityOf r k = .minor := by
        have not_major := List.find?_eq_none.1 none_major k (List.mem_finRange k)
        cases hs : severityOf r k with
        | minor => rfl
        | major => simp [hk, hs] at not_major
      have minor_j : severityOf r j = .minor := by
        have not_major := List.find?_eq_none.1 none_major j (List.mem_finRange j)
        cases hs : severityOf r j with
        | minor => rfl
        | major => simp [List.find?_some hj, hs] at not_major
      simp only [minor, minor_j, decide_eq_true_eq] at outranks
      exact absurd outranks (Nat.not_lt.2 (find_allSlots_le hj hk))

theorem highest_eq_none {r : Run} {f : Fin 82 → Bool} (h : ∀ k, f k = false) : highest r f = none := by
  have no : allSlots.find? f = none := List.find?_eq_none.2 fun k _ => by simp [h k]
  unfold highest
  rw [List.find?_eq_none.2 fun k _ => by simp [h k]]
  exact no

theorem masked_congr {r r' : Run} (hs : r'.stack = r.stack)
    (hr : ∀ j, (r'.slots.get j).rule = (r.slots.get j).rule) (k : Fin 82) : masked r' k = masked r k := by
  unfold masked
  rw [hs]
  split
  · rfl
  · rw [ranksAbove_congr hr]

/-- The slot a release has unmasked: pending, masked before and not after. -/
def unmaskedBy (a b : Run) (j : Fin 82) : Bool := (b.slots.get j).pending && masked a j && !masked b j

theorem renotice_slot (a b r : Run) (k j : Fin 82) :
    (renotice a b r k).slots.get j = { r.slots.get j with
      noticed := (r.slots.get j).noticed && !(decide (j = k) && unmaskedBy a b j) } := by
  unfold renotice
  rw [show ((b.slots.get k).pending && masked a k && !masked b k) = unmaskedBy a b k from rfl]
  split
  · rename_i unmasked
    rw [Run.modSlot_get]
    split
    · rename_i e; subst e; simp [unmasked]
    · rename_i ne; simp [Ne.symm ne]
  · rename_i stays
    by_cases e : j = k
    · subst e; simp [stays]
    · simp [e]

theorem foldl_renotice_slot (a b : Run) (l : List (Fin 82)) (r : Run) (j : Fin 82) :
    (l.foldl (renotice a b) r).slots.get j = { r.slots.get j with
      noticed := (r.slots.get j).noticed && !(decide (j ∈ l) && unmaskedBy a b j) } := by
  induction l generalizing r with
  | nil => simp
  | cons i l ih =>
    rw [List.foldl_cons, ih, renotice_slot]
    by_cases e : j = i
    · subst e
      cases unmaskedBy a b j <;> simp
    · simp [e]

/-- The run-time state with the top of the stack popped. -/
def popSlot (k : Fin 82) (rest : List (Fin 82)) (r : Run) : Run :=
  { r.modSlot k (fun x => { x with underService := false }) with stack := rest }

theorem popSlot_slot (k j : Fin 82) (rest : List (Fin 82)) (r : Run) :
    (popSlot k rest r).slots.get j = { r.slots.get j with
      underService := (r.slots.get j).underService && j != k } := by
  unfold popSlot
  dsimp only
  rw [Run.modSlot_get]
  split
  · rename_i e; subst e; simp
  · rename_i ne; rw [bne_iff_ne.2 (Ne.symm ne), Bool.and_true]

theorem releaseSlot_eq (k : Fin 82) (rest : List (Fin 82)) (r : Run) :
    releaseSlot k rest r = allSlots.foldl (renotice r (popSlot k rest r)) (popSlot k rest r) := rfl

theorem foldl_renotice_frame (a b : Run) (l : List (Fin 82)) (r : Run) :
    l.foldl (renotice a b) r = { r with slots := (l.foldl (renotice a b) r).slots } := by
  induction l generalizing r with
  | nil => rfl
  | cons i l ih =>
    have one : renotice a b r i = { r with slots := (renotice a b r i).slots } := by
      unfold renotice
      split <;> rfl
    rw [List.foldl_cons, ih, one]

theorem releaseSlot_run (k : Fin 82) (rest : List (Fin 82)) (r : Run) :
    releaseSlot k rest r = { r with stack := rest, slots := (releaseSlot k rest r).slots } := by
  have frame := foldl_renotice_frame r (popSlot k rest r) allSlots (popSlot k rest r)
  rw [releaseSlot_eq]
  exact frame

/-- R156: a release's whole effect on a slot. -/
theorem releaseSlot_get (k j : Fin 82) (rest : List (Fin 82)) (r : Run) :
    (releaseSlot k rest r).slots.get j = { r.slots.get j with
      underService := (r.slots.get j).underService && j != k
      noticed := (r.slots.get j).noticed
        && !((r.slots.get j).pending && masked r j && !masked (releaseSlot k rest r) j) } := by
  have mask : masked (releaseSlot k rest r) j = masked (popSlot k rest r) j := by
    refine masked_congr ((releaseSlot_frame k rest r).2.2) (fun i => ?_) j
    rw [popSlot_slot]
    exact (releaseSlot_slot k i rest r).2.1
  have listed : j ∈ allSlots := List.mem_finRange j
  rw [mask, releaseSlot_eq, foldl_renotice_slot, popSlot_slot]
  simp only [unmaskedBy, popSlot_slot, listed, decide_true, Bool.true_and]

theorem reqTakeAlarm_takes {s : State} {k : Fin 82} (h : slotToTake s.run = some k) :
    reqTakeAlarm s = answerDone (takeView s.run k) { s with run := takeSlot k s.run } := by
  unfold reqTakeAlarm
  rw [h]

theorem reqTakeAlarm_empty {s : State} (h : slotToTake s.run = none) : reqTakeAlarm s = refuse .empty s := by
  unfold reqTakeAlarm
  rw [h]

theorem reqReleaseAlarm_releases {s : State} {k : Fin 82} {rest : List (Fin 82)} (h : s.run.stack = k :: rest) :
    reqReleaseAlarm s = answerDone (data10 (byteOf k.val)) { s with run := releaseSlot k rest s.run } := by
  unfold reqReleaseAlarm
  rw [h]

theorem reqReleaseAlarm_empty {s : State} (h : s.run.stack = []) : reqReleaseAlarm s = refuse .empty s := by
  unfold reqReleaseAlarm
  rw [h]

end Sys2Proof.Machine

namespace Sys2Proof.Proofs

open Sys2Proof.Machine

/-- Settles O19: the warm reset clears every slot and the monitor is LOCKED, so the contact opens. -/
theorem resetPartRestarts : Obligations.ResetPartRestarts := by
  intro tag s ha
  obtain ⟨_, _, locked⟩ := acting_iff.1 ha
  have quiet : ∀ p : LoopPort, p.monitor = s.port.monitor → contactAsserted p s.run.warmReset = false :=
    fun p hp => contactAsserted_warmReset (by rw [hp, locked]; decide) s.run
  show request (payload13 24 tag) s = _
  rw [request_acting ha, show answerManage (payload13 24 tag) s = answerDone data10 (warmReset s) from rfl,
    replyCell_eq _ s _ (show 1 ≤ (24 : Byte).toNat by decide) (show (24 : Byte).toNat ≤ 24 by decide)]
  unfold State.judged
  rw [show (answerDone data10 (warmReset s)).state.run = s.run.warmReset from rfl]
  exact congrArg _ (congrArg (fun b => ({ (warmReset s) with port := { (warmReset s).port with
    loopOut := some (s.replyCell 24 tag 0 (Vector.replicate 10 0)), contact := b } } : State)) (quiet _ rfl))

/-- Settles O24: a record whose octets R147 accepts is the rule it names; every other is refused. -/
theorem rulesWrittenAndRead : Obligations.RulesWrittenAndRead := by
  refine fun tag rule x s ha hr => ⟨fun i q a hi hq hact low high hm => ?_, fun refused => ?_, fun i hi => ?_, fun above => ?_⟩
  · have answered := (answerManage_setRule tag rule x s).trans
      (reqSetRule_done s (indexOf_eq_some.2 hi) (readRuleRecord_of_codes hq hact low high hm))
    exact coded_done ha (clearRuleCounters_contactRight hr i _) answered
  · have none_read : indexOf 16 rule = none ∨ readRuleRecord x = none := by
      rcases refused with above | bad
      · exact .inl (indexOf_eq_none.2 above)
      · exact .inr (readRuleRecord_eq_none bad)
    exact coded_refused ha hr ((answerManage_setRule tag rule x s).trans (reqSetRule_refused s none_read))
  · have answered := reqReadRule_reads hi s
    rw [ruleView, ruleOctet0_eq] at answered
    exact coded_done (m := payload13 17 tag rule) ha hr answered
  · have refused : reqReadRule rule s = refuse .range s := by
      unfold reqReadRule
      rw [indexOf_eq_none.2 above]
    exact coded_refused (m := payload13 17 tag rule) ha hr refused

/-- Settles O25: the k-th bit of a packed list is its k-th entry. -/
theorem enablesWrittenAlarmsRead : Obligations.EnablesWrittenAlarmsRead := by
  refine fun tag s ha hr => ⟨fun mode mask => ⟨fun low b14 b15 => ?_, fun refused => ?_⟩, fun group position =>
    ⟨fun h => ?_, fun p h hp => ?_, fun refused => ?_⟩⟩
  · let su : Setup := { s.setup with enables := changeEnables (mode == 1) mask s.setup.enables }
    have answered : reqSetAlarmEnables mode mask s
        = answerDone (data10 (hi16 (enableBits su)) (lo16 (enableBits su))) { s with setup := su } := by
      unfold reqSetAlarmEnables
      rw [if_neg (by rw [b14, b15]; simp; omega)]
    refine ⟨su.enables, enableBits su, coded_done (u := { s with setup := su }) ha hr
      ((answerManage_setAlarmEnables tag mode mask s).trans answered), changeEnables_get _ _ _, fun n => ?_,
      enableBits_getLsbD su (by decide), enableBits_getLsbD su (by decide)⟩
    rw [enableBits_getLsbD su (by omega), dif_pos n.isLt]
  · have answered : reqSetAlarmEnables mode mask s = refuse .range s := if_pos refused
    exact coded_refused ha hr ((answerManage_setAlarmEnables tag mode mask s).trans answered)
  · subst h
    refine ⟨areaView s, coded_done (m := payload13 21 tag 0 position) ha hr (reqReadAlarms_area position s),
      fun k hk => ⟨?_, ?_⟩, fun n hn => ?_, rfl⟩
    · exact (bitsOf_octets24 _ (by omega)).trans (areaSlots_getD (fun k => (s.run.slots.get k).pending) k hk)
    · exact (bitsOf_octets24 _ (by omega)).trans (areaSlots_getD (fun k => (s.run.slots.get k).underService) k hk)
    · exact (bitsOf_getLsbD _ (by omega)).trans (enables_take_getD _ n hn)
  · subst h
    refine ⟨positionView s p, coded_done (m := payload13 21 tag 1 position) ha hr (reqReadAlarms_position hp s),
      fun j k hk => ⟨?_, ?_⟩, fun j n hn => ?_, rfl⟩
    · exact (bitsOf_getLsbD _ j.isLt).trans (positionSlots_getD (fun k => (s.run.slots.get k).pending) p j k hk)
    · exact (bitsOf_getLsbD _ j.isLt).trans (positionSlots_getD (fun k => (s.run.slots.get k).underService) p j k hk)
    · exact (bitsOf_getLsbD _ j.isLt).trans (enables_drop_getD _ n j hn)
  · exact coded_refused (m := payload13 21 tag group position) ha hr (reqReadAlarms_refused refused s)

/-- Settles O26: the slot taken is the one `highest` answers; a release re-notices what it unmasks. -/
theorem alarmsTakenAndReleased : Obligations.AlarmsTakenAndReleased := by
  have waits_iff : ∀ (r : Run) (k : Fin 82), ((r.slots.get k).pending && !masked r k) = true
      ↔ (r.slots.get k).pending = true ∧ masked r k = false := fun r k => by simp
  refine fun tag s ha hr => ⟨fun idle => ?_, fun k hk above => ?_, fun empty => ?_, fun k rest top => ?_⟩
  · have none_waits : slotToTake s.run = none := highest_eq_none fun k => by
      rw [← Bool.not_eq_true, waits_iff]
      exact idle k
    exact coded_refused (m := payload13 18 tag) ha hr (reqTakeAlarm_empty none_waits)
  · have taken : slotToTake s.run = some k := highest_of_outranks ((waits_iff _ k).2 hk)
      fun j hj ne => above j ((waits_iff _ j).1 hj) ne
    obtain ⟨t, next, port, right, setup, pending, run⟩ :=
      coded_answered (m := payload13 18 tag) (n := 18) ha (reqTakeAlarm_takes taken)
    refine ⟨t, takeView s.run k, next, port, right, rfl, setup, pending, ?_, ?_, fun j ne => ?_⟩ <;> rw [run]
    · rfl
    · exact (takeSlot_slot k k s.run).trans (if_pos rfl)
    · exact (takeSlot_slot k j s.run).trans (if_neg (Ne.symm ne))
  · exact coded_refused (m := payload13 19 tag) ha hr (reqReleaseAlarm_empty empty)
  · obtain ⟨t, next, port, right, setup, pending, run⟩ :=
      coded_answered (m := payload13 19 tag) (n := 19) ha (reqReleaseAlarm_releases top)
    refine ⟨t, next, port, right, setup, pending, ?_, fun j => ?_⟩ <;> rw [run]
    · exact releaseSlot_run k rest s.run
    · exact releaseSlot_get k j rest s.run

end Sys2Proof.Proofs
end

section
/-! PROOFS. The read requests (O27). -/

namespace Sys2Proof.Machine

/-! ### Fields packed into an octet (11, section 11.5) -/

/-- A station octet with two flags above it. -/
theorem stationOctet : ∀ (st : Station) (a b : Bool),
    (st.setWidth 8 ||| bitOf a 6 ||| bitOf b 7 : Byte).getLsbD 6 = a
      ∧ (st.setWidth 8 ||| bitOf a 6 ||| bitOf b 7 : Byte).getLsbD 7 = b
      ∧ (st.setWidth 8 ||| bitOf a 6 ||| bitOf b 7 : Byte) &&& 63 = st.setWidth 8 := by decide

theorem emptyOctet : ∀ a b : Bool, ((0 : Byte) ||| bitOf a 6 ||| bitOf b 7).getLsbD 6 = a
    ∧ ((0 : Byte) ||| bitOf a 6 ||| bitOf b 7).getLsbD 7 = b := by decide

/-- The gauge, the rate and the motion state of an octet with two flags above them. -/
theorem motionOctet (g : Fin 2) (f : Fin 3) (m : Motion) (a b : Bool) :
    let d := byteOf (g.val + 2 * f.val + 8 * m.code) ||| bitOf a 6 ||| bitOf b 7
    (d >>> 3) &&& 7 = BitVec.ofNat 8 m.code ∧ d.getLsbD 6 = a ∧ d.getLsbD 7 = b := by
  cases m <;> revert g f a b <;> decide

/-- The lamp state, the dowser and the role of an octet with a flag above them. -/
theorem lampOctet (l : LampState) (w : Dowser) (x : Role) (a : Bool) :
    let d := byteOf (l.code + 8 * w.code + 32 * x.code) ||| bitOf a 7
    d &&& 7 = BitVec.ofNat 8 l.code ∧ (d >>> 3) &&& 3 = BitVec.ofNat 8 w.code
      ∧ (d >>> 5) &&& 3 = BitVec.ofNat 8 x.code ∧ d.getLsbD 7 = a := by
  cases l <;> cases w <;> cases x <;> revert a <;> decide

theorem Gauge.code_lt (g : Gauge) : g.code < 2 := by cases g <;> decide

theorem Rate.code_lt (f : Rate) : f.code < 3 := by cases f <;> decide

/-- Two flags and the chain state of an octet. -/
theorem modeOctet (a b : Bool) (x : ChainState) :
    let d := bitOf a 0 ||| bitOf b 1 ||| byteOf (4 * x.code)
    d.getLsbD 0 = a ∧ d.getLsbD 1 = b ∧ (d >>> 2) &&& 7 = BitVec.ofNat 8 x.code := by
  cases a <;> cases b <;> cases x <;> decide

theorem flagsOctet (a b : Bool) : (bitOf a 0 ||| bitOf b 1).getLsbD 0 = a := by cases a <;> cases b <;> decide

theorem flagOctet (a : Bool) : (bitOf a 0).getLsbD 0 = a := by cases a <;> decide

/-- The bit of a LOADED record. -/
theorem cueOctet0_loaded (b : Cue) : (cueOctet0 b).getLsbD 7 = true := by
  unfold cueOctet0
  simp only [BitVec.getLsbD_or]
  rfl

/-! ### READ POSITION (R24) -/

theorem reqReadPosition_state {position view : Byte} {p : Fin 8} (h : position.toNat = p.val) (hv : view ≠ 1) (s : State) :
    reqReadPosition position view s = answerDone (stateView s p) s := by
  unfold reqReadPosition
  rw [indexOf_eq_some.2 h]
  dsimp only
  rw [if_neg hv]

theorem reqReadPosition_place {position : Byte} {p : Fin 8} (h : position.toNat = p.val) (s : State) :
    reqReadPosition position 1 s = answerDone (placeView s p) s := by
  unfold reqReadPosition
  rw [indexOf_eq_some.2 h]
  rfl

theorem stateView_station (s : State) (p : Fin 8) :
    (stateView s p)[0].getLsbD 6 = (s.setup.positions.get p).isSome
      ∧ (stateView s p)[0].getLsbD 7 = heldFlag s.run p
      ∧ ∀ x, s.setup.positions.get p = some x → (stateView s p)[0] &&& 63 = x.station.setWidth 8 := by
  unfold stateView data10
  cases s.setup.positions.get p with
  | none => exact ⟨(emptyOctet false _).1, (emptyOctet false _).2, fun x h => nomatch h⟩
  | some d =>
    obtain ⟨defined, held, station⟩ := stationOctet d.station true (heldFlag s.run p)
    exact ⟨defined, held, fun x h => Option.some.inj h ▸ station⟩

theorem stateView_motion (s : State) (p : Fin 8) :
    let m := s.run.motions.get p
    let d := (stateView s p)[1]
    (d >>> 3) &&& 7 = BitVec.ofNat 8 m.motion.code ∧ d.getLsbD 6 = m.stallFlag ∧ d.getLsbD 7 = m.silent := by
  unfold stateView data10
  cases s.setup.positions.get p with
  | none => exact motionOctet 0 0 ..
  | some d => exact motionOctet ⟨d.gauge.code, d.gauge.code_lt⟩ ⟨d.rate.code, d.rate.code_lt⟩ ..

/-! ### READ REEL (R74) -/

/-- The data of a READ REEL reply. -/
def reelView (s : State) (p : Fin 8) : Vector Byte 10 :=
  let x := s.setup.reels.get p
  let v := valueOctets x.lastPicture
  data10 (pageOctet (x.slots.get 0)) (pageOctet (x.slots.get 1)) (pageOctet (x.slots.get 2)) (pageOctet (x.slots.get 3))
    (bitOf x.lastPicture.isSome 0) v.1 v.2.1 v.2.2 (byteOf (s.run.scans.get p).cursor) (byteOf (listLength s.setup p))

theorem reqReadReel_reads {position : Byte} {p : Fin 8} (h : position.toNat = p.val) (s : State) :
    reqReadReel position s = answerDone (reelView s p) s := by
  unfold reqReadReel
  rw [indexOf_eq_some.2 h]
  rfl

/-- The page octets of a READ REEL reply, slot by slot. -/
theorem reelView_slot (s : State) (p : Fin 8) (k : Fin 4) :
    (reelView s p)[k.val]'(by omega) = match (s.setup.reels.get p).slots.get k with
      | some g => BitVec.ofNat 8 g.val
      | none => 255 := by
  have octet : (reelView s p)[k.val]'(by omega) = pageOctet ((s.setup.reels.get p).slots.get k) := by
    match k with
    | 0 | 1 | 2 | 3 => rfl
  rw [octet]
  cases (s.setup.reels.get p).slots.get k <;> rfl

/-! ### READ CHAIN (R125) -/

theorem reqReadChain_reads {chain : Byte} {c : Fin 4} (h : chain.toNat = c.val) (s : State) :
    reqReadChain chain s = answerDone (chainView s c) s := by
  unfold reqReadChain
  rw [indexOf_eq_some.2 h]

theorem chainView_station (s : State) (c : Fin 4) :
    (chainView s c)[0].getLsbD 6 = (s.setup.chains.get c).isSome
      ∧ ∀ x, s.setup.chains.get c = some x → (chainView s c)[0] &&& 63 = x.station.setWidth 8 := by
  unfold chainView data10
  cases s.setup.chains.get c with
  | none => exact ⟨(emptyOctet false _).1, fun x h => nomatch h⟩
  | some d =>
    obtain ⟨defined, _, station⟩ := stationOctet d.station true d.caption
    exact ⟨defined, fun x h => Option.some.inj h ▸ station⟩

/-! ### READ CUE (R70) -/

theorem reqReadCue_reads {page record : Byte} {g : Fin 32} {i : Fin 8} (hg : page.toNat = g.val)
    (hi : record.toNat = i.val) (s : State) : reqReadCue page record s = answerDone (cueView s g i) s := by
  unfold reqReadCue
  rw [indexOf_eq_some.2 hg, indexOf_eq_some.2 hi]

theorem reqReadCue_refused {page record : Byte} (h : 31 < page.toNat ∨ 7 < record.toNat) (s : State) :
    reqReadCue page record s = refuse .range s := by
  unfold reqReadCue
  split
  · rename_i hg hi
    rw [indexOf_eq_some] at hg hi
    omega
  · rfl

theorem cueView_loaded {s : State} {g : Fin 32} {i : Fin 8} {b : Cue} (h : (s.setup.pages.get g).get i = some b) :
    (cueView s g i)[8] = b.tag ∧ (cueView s g i)[0].getLsbD 7 = true
      ∧ ((cueView s g i)[1] ++ (cueView s g i)[2] ++ (cueView s g i)[3] : BitVec 24) = BitVec.ofInt 24 b.point := by
  unfold cueView
  rw [h]
  exact ⟨rfl, cueOctet0_loaded b, octets24 b.point⟩

theorem cueView_vacant {s : State} {g : Fin 32} {i : Fin 8} (h : (s.setup.pages.get g).get i = none) (n : Fin 9) :
    (cueView s g i)[n.val]'(by omega) = 0 := by
  unfold cueView
  rw [h]
  match n with
  | 0 | 1 | 2 | 3 | 4 | 5 | 6 | 7 | 8 => rfl

end Sys2Proof.Machine

namespace Sys2Proof.Proofs

open Sys2Proof.Machine

/-- Settles O27: each field is read back out of the octet it was packed into. -/
theorem recordsRead : Obligations.RecordsRead := by
  refine fun tag s ha hr => ⟨fun position view => ⟨fun p hp hv => ?_, fun p hp hv => ?_, fun above => ?_⟩,
    fun a b => ⟨fun p hp => ?_, fun above => ?_, fun c hc => ?_, fun above => ?_, fun g i hg hi => ?_, fun above => ?_⟩⟩
  · obtain ⟨defined, held, station⟩ := stateView_station s p
    obtain ⟨motion, stall, silent⟩ := stateView_motion s p
    obtain ⟨lamp, dowser, role, referenced⟩ := lampOctet (s.run.lamps.get p).lamp (s.run.lamps.get p).dowser
      (roleOf s.setup s.run p) (s.run.motions.get p).referenced
    exact ⟨stateView s p, coded_done (m := payload13 2 tag position view) ha hr (reqReadPosition_state hp hv s),
      defined, held, station, motion, stall, silent, lamp, dowser, role, referenced, rfl, rfl, octets24 _⟩
  · subst hv
    refine ⟨placeView s p, coded_done (m := payload13 2 tag position 1) ha hr (reqReadPosition_place hp s),
      octets24 _, flagsOctet _ _, ?_⟩
    unfold placeView data10
    cases s.setup.positions.get p with
    | none => exact ⟨read16_hi_lo _, rfl⟩
    | some d =>
      cases hg : d.gauge with
      | mm35 => simp only [hg, Option.map_some, reduceCtorEq, if_false, Option.some.injEq]; exact ⟨read16_hi_lo _, rfl⟩
      | mm16 => simp only [hg, Option.map_some, if_true]; exact ⟨read16_hi_lo _, rfl⟩
  · have refused : reqReadPosition position view s = refuse .range s := by
      unfold reqReadPosition
      rw [indexOf_eq_none.2 above]
    exact coded_refused (m := payload13 2 tag position view) ha hr refused
  · refine ⟨reelView s p, coded_done (m := payload13 11 tag a) ha hr (reqReadReel_reads hp s), reelView_slot s p,
      flagOctet _, rfl, ?_⟩
    rw [← listLength_eq]
    rfl
  · have refused : reqReadReel a s = refuse .range s := by
      unfold reqReadReel
      rw [indexOf_eq_none.2 above]
    exact coded_refused (m := payload13 11 tag a) ha hr refused
  · obtain ⟨defined, station⟩ := chainView_station s c
    obtain ⟨armed, fallback, state⟩ := modeOctet (s.setup.modes.get c).armed (s.setup.modes.get c).fallback
      (s.run.chains.get c).state
    exact ⟨chainView s c, coded_done (m := payload13 5 tag a) ha hr (reqReadChain_reads hc s), defined, station, armed,
      fallback, state, rfl, rfl, rfl⟩
  · have refused : reqReadChain a s = refuse .range s := by
      unfold reqReadChain
      rw [indexOf_eq_none.2 above]
    exact coded_refused (m := payload13 5 tag a) ha hr refused
  · exact ⟨cueView s g i, coded_done (m := payload13 7 tag a b) ha hr (reqReadCue_reads hg hi s),
      fun x hx => cueView_loaded hx, cueView_vacant⟩
  · exact coded_refused (m := payload13 7 tag a b) ha hr (reqReadCue_refused above s)

end Sys2Proof.Proofs
end

section
/-! PROOFS. The notices that leave and the screen's verdicts (O47, O35). -/

namespace Sys2Proof.Machine

/-! ### A return VOID (R12, R154) -/

theorem exec_returnVoid {s : State} (ha : s.acting) (st : Byte) (m : Payload) :
    exec (.returnVoid st m) s = .next (State.judged { (offerNotice (Cell.make .void st m) s).state with
      port := (offerNotice (Cell.make .void st m) s).state.port.leaves .ret
        (some (offerNotice (Cell.make .void st m) s).out) }) :=
  congrArg Host.Outcome.next (receive_acting ha .ret .void st m)

theorem slotToNotice_iff (r : Run) (k : Fin 82) :
    ((r.slots.get k).pending && !(r.slots.get k).noticed && !masked r k) = true
      ↔ (r.slots.get k).pending = true ∧ (r.slots.get k).noticed = false ∧ masked r k = false := by
  simp [and_assoc]

theorem slotToNotice_none {r : Run}
    (h : ∀ k, ¬ ((r.slots.get k).pending = true ∧ (r.slots.get k).noticed = false ∧ masked r k = false)) :
    slotToNotice r = none :=
  highest_eq_none fun k => by
    rw [← Bool.not_eq_true, slotToNotice_iff]
    exact h k

/-- A notice sets no condition of the contact. -/
theorem noteSlot_contactRight {s : State} (hr : s.contactRight) (k : Fin 82) :
    ({ s with run := noteSlot k s.run } : State).contactRight := by
  have same : majorStands (noteSlot k s.run) = majorStands s.run := by
    unfold majorStands
    refine List.any_congr rfl fun j => ?_
    obtain ⟨pending, _, service⟩ := noteSlot_slot k j s.run
    rw [pending, service, severityOf_congr fun i => (noteSlot_slot k i s.run).2.1]
  show s.port.contact = contactAsserted s.port (noteSlot k s.run)
  unfold contactAsserted
  rw [same]
  exact hr

theorem offerNotice_alarm {s : State} {k : Fin 82} (h : slotToNotice s.run = some k) (void : Cell) :
    offerNotice void s = {
      out := noticeCell s (alarmPayload s.port.sweep s.run k), state := { s with run := noteSlot k s.run } } := by
  unfold offerNotice
  rw [h]

theorem offerNotice_queued {s : State} {n : Notice} {rest : List Notice} (h : slotToNotice s.run = none)
    (hn : s.run.notices = n :: rest) (void : Cell) :
    offerNotice void s = {
      out := noticeCell s (noticePayload n), state := { s with run := { s.run with notices := rest } } } := by
  unfold offerNotice
  rw [h, hn]

theorem offerNotice_nothing {s : State} (h : slotToNotice s.run = none) (hn : s.run.notices = []) (void : Cell) :
    offerNotice void s = forward void s := by
  unfold offerNotice
  rw [h, hn]

/-- The oldest queued notice leaves in the VOID's place. -/
theorem exec_returnVoid_queued {s : State} (ha : s.acting) (hr : s.contactRight) {n : Notice} {rest : List Notice}
    (h : slotToNotice s.run = none) (hn : s.run.notices = n :: rest) (st : Byte) (m : Payload) :
    exec (.returnVoid st m) s = .next (({ s with run := { s.run with notices := rest } } : State).shows
      .ret (Cell.make .notice (s.port.own.setWidth 8) (noticePayload n))) := by
  rw [exec_returnVoid ha, offerNotice_queued h hn]
  have right : ({ s with run := { s.run with notices := rest } } : State).contactRight := hr
  exact congrArg _ (shows_of_right .ret _ right)

/-- The four flags of an ALARM notice. -/
theorem flags4 : ∀ a b c d : Bool, (bitOf a 0 ||| bitOf b 1 ||| bitOf c 2 ||| bitOf d 3).getLsbD 0 = a
    ∧ (bitOf a 0 ||| bitOf b 1 ||| bitOf c 2 ||| bitOf d 3).getLsbD 1 = b
    ∧ (bitOf a 0 ||| bitOf b 1 ||| bitOf c 2 ||| bitOf d 3).getLsbD 2 = c
    ∧ (bitOf a 0 ||| bitOf b 1 ||| bitOf c 2 ||| bitOf d 3).getLsbD 3 = d := by decide

theorem Severity.bit_eq (x : Severity) : x.bit = decide (x = .major) := by cases x <;> rfl

/-! ### Ports, chains and roles (R101, R102) -/

/-- The chain found holds the position at the port found. -/
theorem chainOf_port {su : Setup} {p : Fin 8} {c : Fin 4} {z : Port} (h : chainOf su p = some (c, z)) :
    portPosition su c z = some p := by
  obtain ⟨d, _, hd⟩ := List.exists_of_findSome?_eq_some h
  unfold portIn at hd
  split at hd
  · cases hd
  · rename_i x hx
    have at_port : ∀ y, x.at y = some p → portPosition su d y = some p := fun y hy => by
      unfold portPosition
      rw [hx]
      exact hy
    split at hd
    · rename_i h0
      cases hd
      exact at_port .zero h0
    · split at hd
      · rename_i h1
        cases hd
        exact at_port .one h1
      · cases hd

theorem PortsSingle.unique {su : Setup} (hs : PortsSingle su) {c d : Fin 4} {z y : Port} {p : Fin 8}
    (hc : portPosition su c z = some p) (hd : portPosition su d y = some p) : c = d ∧ z = y := by
  obtain ⟨zeros, ones, across⟩ := hs c d p
  obtain ⟨_, _, back⟩ := hs d c p
  cases z <;> cases y
  · exact ⟨zeros hc hd, rfl⟩
  · exact absurd hd (across hc)
  · exact absurd hc (back hd)
  · exact ⟨ones hc hd, rfl⟩

theorem chainOf_of_port {su : Setup} (hs : PortsSingle su) {c : Fin 4} {z : Port} {p : Fin 8}
    (h : portPosition su c z = some p) : chainOf su p = some (c, z) := by
  cases hc : chainOf su p with
  | none => exact absurd h (chainOf_eq_none.1 hc c z)
  | some y =>
    obtain ⟨rfl, rfl⟩ := hs.unique (chainOf_port hc) h
    rfl

@[simp] theorem Port.input_port (z : Port) : z.input.port = some z := by cases z <;> rfl

theorem Input.port_eq_some {i : Input} {z : Port} : i.port = some z ↔ i = z.input := by
  cases i <;> cases z <;> simp [Input.port, Port.input]

theorem Port.eq_or_other (z y : Port) : y = z ∨ y = z.other := by cases z <;> cases y <;> simp [Port.other]

@[simp] theorem Port.other_ne (z : Port) : z.other ≠ z := by cases z <;> decide

@[simp] theorem Port.other_other (z : Port) : z.other.other = z := by cases z <;> rfl

/-- The on-air position, of a chain whose observed selection is a port that holds a defined position. -/
theorem onAirPosition_of {su : Setup} {r : Run} {c : Fin 4} {z : Port} {p : Fin 8}
    (observed : (r.chains.get c).observed = some z.input) (port : portPosition su c z = some p)
    (defined : (su.positions.get p).isSome = true) : onAirPosition su r c = some p := by
  unfold onAirPosition definedPos
  rw [observed]
  simp [port, defined]

theorem onAirPosition_eq_some {su : Setup} {r : Run} {c : Fin 4} {p : Fin 8} :
    onAirPosition su r c = some p ↔ ∃ z, (r.chains.get c).observed = some z.input ∧ portPosition su c z = some p
      ∧ (su.positions.get p).isSome = true := by
  refine ⟨fun h => ?_, fun ⟨z, observed, port, defined⟩ => onAirPosition_of observed port defined⟩
  unfold onAirPosition definedPos at h
  cases ho : (r.chains.get c).observed with
  | none => simp [ho] at h
  | some i =>
    cases hi : i.port with
    | none => simp [ho, hi] at h
    | some z =>
      cases hp : portPosition su c z with
      | none => simp [ho, hi, hp] at h
      | some q =>
        simp only [ho, hi, hp, Option.bind_some] at h
        split at h
        · rename_i defined
          cases h
          exact ⟨z, congrArg some (Input.port_eq_some.1 hi), hp, defined⟩
        · cases h

/-- R101, port by port. -/
theorem pairValid_iff {su : Setup} {c : Fin 4} (z : Port) :
    pairValid su c = true ↔ ∃ p q x y, portPosition su c z = some p ∧ portPosition su c z.other = some q
      ∧ su.positions.get p = some x ∧ su.positions.get q = some y ∧ x.gauge = y.gauge ∧ x.rate = y.rate := by
  have zero : pairValid su c = true ↔ ∃ p q x y, portPosition su c .zero = some p ∧ portPosition su c .one = some q
      ∧ su.positions.get p = some x ∧ su.positions.get q = some y ∧ x.gauge = y.gauge ∧ x.rate = y.rate := by
    unfold pairValid
    refine ⟨fun h => ?_, fun ⟨p, q, x, y, hp, hq, hx, hy, gauge, rate⟩ => by simp [hp, hq, hx, hy, gauge, rate]⟩
    split at h
    · rename_i p q hp hq
      split at h
      · rename_i x y hx hy
        simp only [Bool.and_eq_true, beq_iff_eq] at h
        exact ⟨p, q, x, y, hp, hq, hx, hy, h.1, h.2⟩
      · cases h
    · cases h
  cases z
  · exact zero
  · rw [zero]
    exact ⟨fun ⟨p, q, x, y, hp, hq, hx, hy, gauge, rate⟩ => ⟨q, p, y, x, hq, hp, hy, hx, gauge.symm, rate.symm⟩,
      fun ⟨p, q, x, y, hp, hq, hx, hy, gauge, rate⟩ => ⟨q, p, y, x, hq, hp, hy, hx, gauge.symm, rate.symm⟩⟩

theorem roleOf_undefined {su : Setup} {r : Run} {p : Fin 8} (h : su.positions.get p = none) : roleOf su r p = .idle := by
  unfold roleOf definedPos
  rw [h]
  rfl

/-- R102: FAULTED. -/
theorem faulted_iff {r : Run} {p : Fin 8} : (Machine.failed r p || (r.lamps.get p).fault) = true ↔
    (r.motions.get p).motion = .broken ∨ (r.motions.get p).silent = true ∨ (r.lamps.get p).fault = true := by
  unfold Machine.failed motionOf
  simp [or_assoc]

theorem roleOf_faulted {su : Setup} {r : Run} {p : Fin 8} (defined : (su.positions.get p).isSome = true)
    (h : (r.motions.get p).motion = .broken ∨ (r.motions.get p).silent = true ∨ (r.lamps.get p).fault = true) :
    roleOf su r p = .faulted := by
  unfold roleOf definedPos
  rw [defined, if_neg (by decide), if_pos (faulted_iff.2 h)]

/-- The role of a sound position is read off its chain. -/
theorem roleOf_sound {su : Setup} {r : Run} {p : Fin 8} (defined : (su.positions.get p).isSome = true)
    (h : ¬ ((r.motions.get p).motion = .broken ∨ (r.motions.get p).silent = true ∨ (r.lamps.get p).fault = true)) :
    roleOf su r p = match chainOf su p with
      | none => .idle
      | some (c, _) =>
        match onAirPosition su r c with
        | none => .idle
        | some a => if a = p then .onAir else if pairValid su c then .next else .idle := by
  unfold roleOf definedPos
  rw [defined, if_neg (by decide), if_neg (fun hf => h (faulted_iff.1 hf))] <;> rfl

/-! ### The screen (R127, R128) -/

theorem columnOf_select_port {su : Setup} {r : Run} {c : Fin 4} {z : Port} {p : Fin 8} (st : Station)
    (h : portPosition su c z = some p) : columnOf su r (.select st c z.input) = roleOf su r p := by
  unfold columnOf selectColumn
  simp [h]

theorem columnOf_select_idle {su : Setup} {r : Run} {c : Fin 4} {i : Input} (st : Station)
    (h : i = .caption ∨ i = .black ∨ ∃ z, i = Port.input z ∧ portPosition su c z = none) :
    columnOf su r (.select st c i) = .idle := by
  unfold columnOf selectColumn
  rcases h with rfl | rfl | ⟨z, rfl, hz⟩
  · rfl
  · rfl
  · simp [hz]

theorem cutsAcross_eq_false {r : Run} {d : DeskOrder}
    (h : ∀ st c i, d = .select st c i → (r.chains.get c).state ≠ .switching) : d.cutsAcross r = false := by
  cases d with
  | position => rfl
  | select st c i => exact beq_eq_false_iff_ne.2 (h st c i rfl)

theorem screened_of_verdict {su : Setup} {r : Run} {d : DeskOrder} {force : Bool} {v : Verdict}
    (free : ∀ st c i, d = .select st c i → (r.chains.get c).state ≠ .switching)
    (hv : (su.screen.get d.order.row).get (columnOf su r d).column = v) : screened su r d force = v.blocks force := by
  unfold screened
  rw [cutsAcross_eq_false free, if_neg (by decide), hv]

end Sys2Proof.Machine

namespace Sys2Proof.Proofs

open Sys2Proof.Machine

/-- Settles O47: the slot noticed is the one `highest` answers; a queued notice leaves in the layout of its kind. -/
theorem returnVoidFilled : Obligations.ReturnVoidFilled := by
  refine fun st m s ha hr => ⟨fun k hk above => ?_, fun idle n rest hn => ?_, fun idle hn => ?_⟩
  · have found : slotToNotice s.run = some k := highest_of_outranks ((slotToNotice_iff _ k).2 hk)
      fun j hj ne => above j ((slotToNotice_iff _ j).1 hj) ne
    refine ⟨alarmPayload s.port.sweep s.run k, ?_, rfl, rfl, rfl, ?_, ?_, ?_, ?_, fun w hw => ?_, fun v hv => ?_,
      fun hv => ?_, fun i w hw => ?_, fun hw => ?_, rfl, rfl, rfl, rfl⟩
    · rw [exec_returnVoid ha, offerNotice_alarm found]
      exact congrArg _ (shows_of_right .ret _ (noteSlot_contactRight hr k))
    · rw [← Severity.bit_eq]
      exact (flags4 _ _ _ _).1
    · exact (flags4 _ _ _ _).2.1
    · exact (flags4 _ _ _ _).2.2.1
    · exact (flags4 _ _ _ _).2.2.2
    · show (s.run.slots.get k).sweep.getD 0 = w
      rw [hw]
      rfl
    · show (valueOctets (s.run.slots.get k).value).1 = _ ∧ (valueOctets (s.run.slots.get k).value).2.1 = _
        ∧ (valueOctets (s.run.slots.get k).value).2.2 = _
      rw [hv]
      exact ⟨rfl, rfl, rfl⟩
    · show (valueOctets (s.run.slots.get k).value).1 = _ ∧ (valueOctets (s.run.slots.get k).value).2.1 = _
        ∧ (valueOctets (s.run.slots.get k).value).2.2 = _
      rw [hv]
      exact ⟨rfl, rfl, rfl⟩
    · show ruleIndexOctet (s.run.slots.get k).rule = _
      rw [hw]
      rfl
    · show ruleIndexOctet (s.run.slots.get k).rule = _
      rw [hw]
      rfl
  · have leaves := exec_returnVoid_queued ha hr (slotToNotice_none idle) hn st m
    unfold noticePayload at leaves
    refine ⟨fun p k hb => ?_, fun p tag a how byBackstop v hb => ?_, fun x o column why hb => ?_,
      fun c first target k h hb => ?_, fun c reported first second hb => ?_, fun p why v hb => ?_⟩ <;>
      rw [leaves, hb]
    · cases k <;> rfl
    · cases byBackstop <;> rfl
    · rfl
    · cases first <;> rfl
    · cases first <;> cases second <;> rfl
    · cases why <;> rfl
  · rw [exec_returnVoid ha, offerNotice_nothing (slotToNotice_none idle) hn]
    exact congrArg _ (shows_of_right .ret _ hr)

/-- Settles O35: the chain and the port of a position are unique, so its role is read off the selection shown. -/
theorem screenVerdicts : Obligations.ScreenVerdicts := by
  refine fun su r d force => ⟨?_, fun free => ⟨?_, ?_, ?_⟩, ?_, fun st c i hd => ?_, fun single p => ⟨roleOf_undefined, ?_⟩⟩
  · rintro st c i rfl switching
    exact if_pos (beq_iff_eq.2 switching)
  · exact fun pass => screened_of_verdict free pass
  · exact fun block => screened_of_verdict free block
  · intro forced
    rw [screened_of_verdict free forced]
    rfl
  · rintro st p o rfl
    rfl
  · subst hd
    exact ⟨fun z p hi hp => hi ▸ columnOf_select_port st hp, columnOf_select_idle st⟩
  · intro x hx
    have defined : (su.positions.get p).isSome = true := by rw [hx]; rfl
    refine ⟨roleOf_faulted defined, fun sound ⟨c, z, port, observed⟩ => ?_,
      fun sound ⟨c, z, port, observed, q, y, hq, hy, gauge, rate⟩ => ?_, fun sound neither => ?_⟩ <;>
      rw [roleOf_sound defined sound]
    · rw [chainOf_of_port single port]
      dsimp only
      rw [onAirPosition_of observed port defined]
      exact if_pos rfl
    · have other : q ≠ p := by
        rintro rfl
        exact Port.other_ne z (single.unique hq port).2
      rw [chainOf_of_port single port]
      dsimp only
      rw [onAirPosition_of observed hq (by rw [hy]; rfl)]
      dsimp only
      rw [if_neg other, if_pos ((pairValid_iff z).2 ⟨p, q, x, y, port, hq, hx, hy, gauge, rate⟩)]
    · cases hc : chainOf su p with
      | none => rfl
      | some cz =>
        obtain ⟨c, z⟩ := cz
        have port := chainOf_port hc
        obtain ⟨not_carried, not_next⟩ := neither c z
        dsimp only
        split
        · rfl
        · rename_i a ha
          obtain ⟨w, observed, hw, hdef⟩ := onAirPosition_eq_some.1 ha
          have not_p : a ≠ p := by
            rintro rfl
            obtain ⟨_, rfl⟩ := single.unique hw port
            exact not_carried ⟨port, observed⟩
          rw [if_neg not_p]
          refine if_neg fun valid => ?_
          obtain rfl : w = z.other := (Port.eq_or_other z w).resolve_left fun e => by
            subst e
            exact not_p (Option.some.inj (hw.symm.trans port))
          obtain ⟨p', q, x', y, hp', hq, hx', hy, gauge, rate⟩ := (pairValid_iff z).1 valid
          obtain rfl := Option.some.inj (hp'.symm.trans port)
          obtain rfl := Option.some.inj (hx'.symm.trans hx)
          exact not_next ⟨port, observed, q, y, hq, hy, gauge, rate⟩

end Sys2Proof.Proofs
end

section
/-! PROOFS. Events that are not due (O49). -/

namespace Sys2Proof.Machine

/-! ### When an event is not due (log 4) -/

theorem reached_eq_false {t : Option Nat} {limit : Nat} : reached t limit = false ↔ ∀ n, t = some n → n < limit := by
  cases t <;> simp [reached]

/-- A part that is not LOCKED takes no event (R15). -/
theorem event_unlocked {s : State} (h : s.port.acting = false) (count : Env → Run → Run) (due : Env → Run → Bool)
    (f : Env → Run → Run) : s.event count due f = s :=
  event_idle (.inl h)

section
variable {e : Env} {r : Run}

theorem silentIsDue_counted {p : Fin 8} (h : ¬ (e.setup.positions.get p).isSome = true ∨ (r.motions.get p).miss = 0
    ∨ (r.motions.get p).silent = true) : silentIsDue e p (r.modMotion p MotionRec.countMiss) = false := by
  unfold silentIsDue definedPos
  rw [Run.modMotion_get, if_pos rfl]
  rcases h with h | h | h
  · simp [h]
  · simp [MotionRec.countMiss, h]
  · simp [MotionRec.countMiss, h]

theorem runupIsDue_counted {p : Fin 8} (h : (r.motions.get p).motion ≠ .runup
    ∨ ∀ n, (r.motions.get p).runup = some n → n + 1 < e.setup.params.runupLimit) :
    runupIsDue e p (r.modMotion p MotionRec.countRunup) = false := by
  unfold runupIsDue
  rw [Run.modMotion_get, if_pos rfl]
  unfold MotionRec.countRunup
  split
  · rename_i runs
    have short := h.resolve_left (fun ne => ne runs)
    dsimp only
    rw [Bool.and_eq_false_iff]
    refine .inr (reached_eq_false.2 fun n hn => ?_)
    obtain ⟨k, hk, rfl⟩ := Option.map_eq_some_iff.1 hn
    exact short k hk
  · rename_i still
    simp [still]

theorem stopIsDue_counted {p : Fin 8} (h : (r.motions.get p).motion ≠ .stopping
    ∨ ∀ n, (r.motions.get p).stop = .running n → n + 1 < e.setup.params.stopLimit) :
    stopIsDue e p (r.modMotion p MotionRec.countStop) = false := by
  unfold stopIsDue
  rw [Run.modMotion_get, if_pos rfl]
  unfold MotionRec.countStop
  split
  · rename_i stops
    have short := h.resolve_left (fun ne => ne stops)
    dsimp only
    cases hs : (r.motions.get p).stop with
    | idle => simp [StopTimer.count]
    | expired => simp [StopTimer.count]
    | running n => simp [StopTimer.count, short n hs]
  · rename_i still
    simp [still]

theorem stallFlagDue_eq_false {p : Fin 8} (h : (r.motions.get p).motion ≠ .locked
    ∨ (r.motions.get p).stall + 1 < e.setup.params.motionWindow
    ∨ 2 * e.setup.params.motionWindow ≤ (r.motions.get p).stall + 1) : stallFlagDue e p r = false := by
  unfold stallFlagDue motionOf nextStall
  rcases h with h | h | h
  · rw [beq_eq_false_iff_ne.2 h, Bool.false_and, Bool.false_and]
  · rw [decide_eq_false (Nat.not_le.2 h), Bool.and_false, Bool.false_and]
  · rw [decide_eq_false (Nat.not_lt.2 h), Bool.and_false]

theorem stallBreakDue_eq_false {p : Fin 8} (h : (r.motions.get p).motion ≠ .locked
    ∨ (r.motions.get p).stall + 1 < 2 * e.setup.params.motionWindow) : stallBreakDue e p r = false := by
  unfold stallBreakDue motionOf nextStall
  rcases h with h | h
  · simp [h]
  · simp [h]

/-- The dot run and the preceding clear run that one more report with DOT leaves. -/
theorem takeDot_true (x : ScanRec) : (x.takeDot true).dotRun = min 7 (x.dotRun + 1)
    ∧ (x.takeDot true).precedingClear = if x.dotRun = 0 then x.clearRun else x.precedingClear := by
  unfold ScanRec.takeDot
  rw [if_pos rfl]
  split <;> exact ⟨rfl, rfl⟩

theorem markDue_eq_false {p : Fin 8} (h : ¬ (e.setup.positions.get p).isSome = true
    ∨ e.setup.params.markLength ≤ (r.scans.get p).dotRun ∨ (r.scans.get p).dotRun + 1 < e.setup.params.markLength
    ∨ (1 ≤ (r.scans.get p).dotRun ∧ (r.scans.get p).precedingClear < e.setup.params.markGap)
    ∨ ((r.scans.get p).dotRun = 0 ∧ (r.scans.get p).clearRun < e.setup.params.markGap)) : markDue e p r = false := by
  obtain ⟨run, clear⟩ := takeDot_true (r.scans.get p)
  unfold markDue definedPos ScanRec.recognises
  dsimp only
  rw [run, clear]
  rcases h with h | h | h | ⟨h, low⟩ | ⟨h, low⟩
  · simp [h]
  · simp [Nat.not_lt.2 h]
  · have short : ¬ min 7 ((r.scans.get p).dotRun + 1) = e.setup.params.markLength := by omega
    simp [short]
  · rw [if_neg (by omega)]
    simp [low]
  · rw [if_pos h]
    simp [low]

theorem settleIsDue_counted {p : Fin 8} (h : (r.lamps.get p).lamp ≠ .settling
    ∨ ∀ n, (r.lamps.get p).settle = some n → n + 1 < e.setup.params.lampSettle) :
    settleIsDue e p (r.modLamp p LampRec.countSettle) = false := by
  unfold settleIsDue
  rw [Run.modLamp_get, if_pos rfl]
  unfold LampRec.countSettle
  split
  · rename_i settles
    have short := h.resolve_left (fun ne => ne settles)
    dsimp only
    rw [Bool.and_eq_false_iff]
    refine .inr (reached_eq_false.2 fun n hn => ?_)
    obtain ⟨k, hk, rfl⟩ := Option.map_eq_some_iff.1 hn
    exact short k hk
  · rename_i still
    simp [still]

theorem strikeIsDue_counted {p : Fin 8} (h : (r.lamps.get p).lamp ≠ .striking
    ∨ ∀ n, (r.lamps.get p).strikeTimer = some n → n + 1 < e.setup.params.strikeLimit) :
    strikeIsDue e p (r.modLamp p LampRec.countStrike) = false := by
  unfold strikeIsDue
  rw [Run.modLamp_get, if_pos rfl]
  unfold LampRec.countStrike
  split
  · rename_i strikes
    have short := h.resolve_left (fun ne => ne strikes)
    dsimp only
    rw [Bool.and_eq_false_iff]
    refine .inr (reached_eq_false.2 fun n hn => ?_)
    obtain ⟨k, hk, rfl⟩ := Option.map_eq_some_iff.1 hn
    exact short k hk
  · rename_i still
    simp [still]

theorem gapIsDue_counted (h : ∀ n, r.gate = .gap n → n + 1 < e.setup.params.staggerGap) :
    gapIsDue e (countGap r) = false := by
  unfold countGap
  split
  · rename_i n hn
    exact decide_eq_false (Nat.not_le.2 (h n hn))
  · rename_i hg
    unfold gapIsDue
    rw [hg]
  · rename_i hg
    unfold gapIsDue
    rw [hg]

theorem eligible_eq_false {x : StrikeEntry} (h : (r.lamps.get x.position).downPending = true) : eligible r x = false := by
  unfold eligible
  rw [h]
  rfl

theorem nextStrike_eq_none (h : ∀ x ∈ r.strikeQueue, (r.lamps.get x.position).downPending = true) : nextStrike r = none := by
  have none_urgent : r.strikeQueue.find? (fun x => eligible r x && x.cls == .urgent) = none :=
    List.find?_eq_none.2 fun x hx => by simp [eligible_eq_false (h x hx)]
  unfold nextStrike
  rw [none_urgent]
  exact List.find?_eq_none.2 fun x hx => by simp [eligible_eq_false (h x hx)]

theorem grantIsDue_eq_false
    (h : r.gate ≠ .free ∨ ∀ x ∈ r.strikeQueue, (r.lamps.get x.position).downPending = true) : grantIsDue r = false := by
  unfold grantIsDue
  rcases h with h | h
  · rw [beq_eq_false_iff_ne.2 h, Bool.false_and]
  · rw [nextStrike_eq_none h, Option.isSome_none, Bool.and_false]

theorem dwellIsDue_counted {p : Fin 8} (positive : 0 < e.setup.params.dwellLimit)
    (h : ¬ (e.setup.positions.get p).isSome = true ∨ ((r.lamps.get p).lamp ≠ .settling ∧ (r.lamps.get p).lamp ≠ .lit)
      ∨ (r.lamps.get p).dowser ≠ .opened ∨ (r.motions.get p).motion ≠ .stopped
      ∨ (r.lamps.get p).dwell + 1 < e.setup.params.dwellLimit) : dwellIsDue e p (countDwell e p r) = false := by
  unfold dwellIsDue countDwell
  rw [Run.modLamp_get, if_pos rfl, decide_eq_false_iff_not, Nat.not_le]
  dsimp only
  split
  · rename_i counts
    simp only [definedPos, dwelling, motionOf, Bool.and_eq_true, Bool.or_eq_true, beq_iff_eq] at counts
    obtain ⟨defined, ⟨burns, opened⟩, stopped⟩ := counts
    rcases h with h | ⟨ns, nl⟩ | h | h | h
    · exact absurd defined h
    · exact absurd burns (by simp [ns, nl])
    · exact absurd opened h
    · exact absurd stopped h
    · exact h
  · exact positive

theorem holdIsDue_counted {c : Fin 4} (h : (r.chains.get c).state ≠ .holding ∨ (r.chains.get c).holdTimer = .idle
    ∨ ∃ n, (r.chains.get c).holdTimer = .running n ∧ n + 1 < (e.setup.modes.get c).holdLimit) :
    holdIsDue c (countHold e c r) = false := by
  unfold holdIsDue chainState countHold
  rw [Run.modChain_get, if_pos rfl]
  split
  · rename_i holds
    dsimp only
    rcases h with h | h | ⟨n, h, short⟩
    · exact absurd holds h
    · simp [h, HoldTimer.count]
    · simp [h, HoldTimer.count, Nat.not_le.2 short]
  · rename_i other
    simp [other]

theorem switchIsDue_counted {c : Fin 4} (h : (r.chains.get c).state ≠ .switching
    ∨ ∀ n, (r.chains.get c).switchTimer = some n → n + 1 < (e.setup.modes.get c).switchLimit) :
    switchIsDue e c (countSwitch c r) = false := by
  unfold switchIsDue chainState countSwitch
  rw [Run.modChain_get, if_pos rfl]
  split
  · rename_i switches
    have short := h.resolve_left (fun ne => ne switches)
    dsimp only
    rw [Bool.and_eq_false_iff]
    refine .inr (reached_eq_false.2 fun n hn => ?_)
    obtain ⟨k, hk, rfl⟩ := Option.map_eq_some_iff.1 hn
    exact short k hk
  · rename_i other
    simp [other]

/-- R143: whether one rule fires, in the terms of the claims. -/
theorem ruleFires_iff {p : Fin 8} {w : Byte} {m : Motion} {j : Fin 16} : ruleFires e r p w m j = true ↔
    (e.setup.rules.get j).active = true ∧ (e.setup.rules.get j).positions.getLsbD p.val = true
      ∧ w &&& (e.setup.rules.get j).mask = (e.setup.rules.get j).values &&& (e.setup.rules.get j).mask
      ∧ ((e.setup.rules.get j).qualifier = .moving → m = .runup ∨ m = .locked)
      ∧ ((e.setup.rules.get j).qualifier = .stopped → m = .stopped)
      ∧ (r.counters.get j).get p + 1 = (e.setup.rules.get j).persistence := by
  have fits : (e.setup.rules.get j).qualifier.fits m = true ↔
      ((e.setup.rules.get j).qualifier = .moving → m = .runup ∨ m = .locked)
        ∧ ((e.setup.rules.get j).qualifier = .stopped → m = .stopped) := by
    cases (e.setup.rules.get j).qualifier <;> cases m <;> simp [Qualifier.fits, Motion.running]
  unfold ruleFires Rule.covers Rule.nextCount Rule.matchesSignals counterOf
  simp only [Bool.and_eq_true, decide_eq_true_eq, beq_iff_eq, fits]
  constructor
  · rintro ⟨⟨⟨active, covered⟩, below⟩, reaches⟩
    split at reaches
    · rename_i fitting
      obtain ⟨⟨moving, stopped⟩, signals⟩ := fitting
      exact ⟨active, covered, signals, moving, stopped, by omega⟩
    · omega
  · rintro ⟨active, covered, signals, moving, stopped, reaches⟩
    refine ⟨⟨⟨active, covered⟩, by omega⟩, ?_⟩
    rw [if_pos ⟨⟨moving, stopped⟩, signals⟩]
    omega

theorem ruleDue_eq_false {p : Fin 8} {w : Byte} (h : ¬ (e.setup.positions.get p).isSome = true ∨ ∀ j : Fin 16,
      (e.setup.rules.get j).active = false ∨ (e.setup.rules.get j).positions.getLsbD p.val = false
        ∨ w &&& (e.setup.rules.get j).mask ≠ (e.setup.rules.get j).values &&& (e.setup.rules.get j).mask
        ∨ ((e.setup.rules.get j).qualifier = .moving ∧ (r.motions.get p).motion ≠ .runup
          ∧ (r.motions.get p).motion ≠ .locked)
        ∨ ((e.setup.rules.get j).qualifier = .stopped ∧ (r.motions.get p).motion ≠ .stopped)
        ∨ (r.counters.get j).get p + 1 < (e.setup.rules.get j).persistence
        ∨ (e.setup.rules.get j).persistence ≤ (r.counters.get j).get p) : ruleDue e p w r = false := by
  unfold ruleDue definedPos
  rw [Bool.and_eq_false_iff]
  refine h.imp (fun h => Bool.not_eq_true _ ▸ h) fun h => ?_
  unfold anyRuleFires
  rw [List.any_eq_false]
  intro j _ fires
  obtain ⟨active, covered, signals, moving, stopped, reaches⟩ := ruleFires_iff.1 fires
  rcases h j with h | h | h | ⟨q, h1, h2⟩ | ⟨q, h1⟩ | h | h
  · rw [h] at active; cases active
  · rw [h] at covered; cases covered
  · exact h signals
  · exact (moving q).elim h1 h2
  · exact h1 (stopped q)
  · omega
  · omega

end

end Sys2Proof.Machine

namespace Sys2Proof.Proofs

open Sys2Proof.Machine

/-- Settles O49: in each row the count leaves the event's condition false, or the part does not act. -/
theorem eventNotDueChangesNothing : Obligations.EventNotDueChangesNothing := by
  intro p c w s
  have idle : ∀ {count : Env → Run → Run} {due : Env → Run → Bool} {f : Env → Run → Run},
      due s.env (count s.env s.run) = false → s.event count due f = s := fun h => event_idle (.inr h)
  refine ⟨fun unlocked i hi => ?_, fun h => ?_, fun h => ?_, fun h => ?_, fun h => ?_, fun h => ?_, fun h => ?_,
    fun h => ?_, fun h => ?_, fun h => ?_, fun h => ?_, fun positive h => ?_, fun h => ?_, fun h => ?_, fun h => ?_⟩
  · simp only [List.mem_cons, List.not_mem_nil, or_false] at hi
    rcases hi with rfl | rfl | rfl | rfl | rfl | rfl | rfl | rfl | rfl | rfl | rfl | rfl | rfl | rfl | rfl
    case inr.inr.inr.inr.inr.inr.inr.inr.inr.inr.inr.inr.inr.inr =>
      exact congrArg Host.Outcome.next (if_neg (by rw [unlocked]; decide))
    all_goals exact congrArg Host.Outcome.next (event_unlocked unlocked ..)
  · exact congrArg Host.Outcome.next (idle (silentIsDue_counted h))
  · exact congrArg Host.Outcome.next (idle (runupIsDue_counted h))
  · exact congrArg Host.Outcome.next (idle (stopIsDue_counted h))
  · exact congrArg Host.Outcome.next (idle (stallFlagDue_eq_false h))
  · exact congrArg Host.Outcome.next (idle (stallBreakDue_eq_false h))
  · exact congrArg Host.Outcome.next (idle (markDue_eq_false h))
  · exact congrArg Host.Outcome.next (idle (settleIsDue_counted h))
  · exact congrArg Host.Outcome.next (idle (strikeIsDue_counted h))
  · exact congrArg Host.Outcome.next (idle (gapIsDue_counted h))
  · exact congrArg Host.Outcome.next (idle (grantIsDue_eq_false h))
  · exact congrArg Host.Outcome.next (idle (dwellIsDue_counted positive h))
  · exact congrArg Host.Outcome.next (idle (holdIsDue_counted h))
  · exact congrArg Host.Outcome.next (idle (switchIsDue_counted h))
  · exact congrArg Host.Outcome.next (idle (ruleDue_eq_false h))

end Sys2Proof.Proofs
end

section
/-! PROOFS. The lamp records and the strike gate written out; desk orders blocked and passed (O36 to O39). -/

namespace Sys2Proof.Machine

/-! ### Records written over (State) -/

theorem set_get_self {α : Type} {n : Nat} (v : Vector α n) (p : Fin n) : v.set p (v.get p) = v :=
  Vector.set_getElem_self p.isLt

theorem Run.modLamp_modLamp (p : Fin 8) (f g : LampRec → LampRec) (r : Run) :
    (r.modLamp p f).modLamp p g = r.modLamp p (fun l => g (f l)) := by
  unfold Run.modLamp
  dsimp only
  rw [get_set_fin, if_pos rfl, Vector.set_set]

theorem Run.modLamp_congr {p : Fin 8} {f g : LampRec → LampRec} {r : Run} (h : f (r.lamps.get p) = g (r.lamps.get p)) :
    r.modLamp p f = r.modLamp p g := by
  unfold Run.modLamp
  rw [h]

theorem Run.modLamp_self {p : Fin 8} {f : LampRec → LampRec} {r : Run} (h : f (r.lamps.get p) = r.lamps.get p) :
    r.modLamp p f = r := by
  unfold Run.modLamp
  rw [h, set_get_self]

theorem Run.handAll_nil (r : Run) : r.handAll [] = r := by
  unfold Run.handAll
  rw [List.append_nil]

/-! ### PRIMED and READY published (R60, R61) -/

section
variable {e : Env} {p : Fin 8} {r : Run}

theorem conditionEvent_alone (h : partnerOf e.setup p = none) : conditionEvent e p = [] := by
  unfold conditionEvent
  rw [h]

/-- Nothing is handed on where there is no partner, or neither condition changes. -/
theorem publish_quietly {a b : Bool}
    (h : partnerOf e.setup p = none ∨ a = (r.lamps.get p).primed ∧ b = (r.lamps.get p).ready) :
    publish e p a b r = r.modLamp p (fun l => { l with primed := a, ready := b }) := by
  have none_handed : ((if a != primed r p then conditionEvent e p else [])
      ++ (if b != ready r p then conditionEvent e p else [])) = [] := by
    rcases h with h | ⟨ha, hb⟩
    · simp [conditionEvent_alone h]
    · simp [primed, ready, ha, hb]
  unfold publish
  rw [none_handed, Run.handAll_nil]

theorem primedNow_eq_false {su : Setup} (h : (r.lamps.get p).lamp ≠ .lit) : primedNow su r p = false :=
  Bool.eq_false_iff.2 fun shown => h (lit_of_primedNow shown)

theorem readyNow_eq_false (h : (r.lamps.get p).lamp ≠ .lit) : readyNow r p = false :=
  Bool.eq_false_iff.2 fun shown => h (lit_of_readyNow shown)

/-- R60: of a lamp that is not LIT neither condition stands. -/
theorem workConditions_unlit (unlit : (r.lamps.get p).lamp ≠ .lit)
    (h : partnerOf e.setup p = none ∨ (r.lamps.get p).primed = false ∧ (r.lamps.get p).ready = false) :
    workConditions e p r = r.modLamp p (fun l => { l with primed := false, ready := false }) := by
  unfold workConditions
  rw [primedNow_eq_false unlit, readyNow_eq_false unlit]
  exact publish_quietly (h.imp id fun ⟨primes, readies⟩ => ⟨primes.symm, readies.symm⟩)

/-! ### The gate (R54, R56) -/

theorem offerGrant_nothing (h : ∀ x ∈ r.strikeQueue, (r.lamps.get x.position).downPending = true) : offerGrant e r = r := by
  unfold offerGrant
  rw [nextStrike_eq_none h]
  split <;> rfl

theorem offerGrant_busy (h : r.gate ≠ .free) : offerGrant e r = r := by
  unfold offerGrant
  split
  · rename_i free; exact absurd free h
  · rfl
  · rfl

/-- R56: the gate enters GAP, or is FREE and stays so where no entry that waits is eligible. -/
theorem enterGap_nothing (h : 0 < e.setup.params.staggerGap
      ∨ ∀ x ∈ r.strikeQueue, (r.lamps.get x.position).downPending = true) :
    enterGap e r = r.setGate (if e.setup.params.staggerGap = 0 then .free else .gap 0) := by
  unfold enterGap
  split
  · rename_i zero
    exact offerGrant_nothing (r := r.setGate .free) (h.resolve_left (by omega))
  · rfl

/-! ### LAMP DOWN taken (R51) -/

theorem takenDown_unlit (l : LampRec) : l.takenDown.lamp ≠ .lit := by
  unfold LampRec.takenDown
  cases hl : l.lamp <;> simp [hl]

theorem takenDown_published (l : LampRec) : l.takenDown.primed = l.primed ∧ l.takenDown.ready = l.ready := by
  unfold LampRec.takenDown
  cases l.lamp <;> exact ⟨rfl, rfl⟩

theorem takenDown_dark {l : LampRec} (h : l.lamp = .dark ∨ l.lamp = .lit ∨ l.lamp = .queued) :
    l.takenDown = { l with lamp := .dark, downPending := true } := by
  unfold LampRec.takenDown
  rcases h with h | h | h <;> rw [h]

theorem takenDown_settling {l : LampRec} (h : l.lamp = .settling) :
    l.takenDown = { l with lamp := .dark, downPending := true, settle := none } := by
  unfold LampRec.takenDown
  rw [h]

theorem takenDown_striking {l : LampRec} (h : l.lamp = .striking) :
    l.takenDown = { l with lamp := .dark, downPending := true, strikeTimer := none } := by
  unfold LampRec.takenDown
  rw [h]

theorem takenDown_unreported {l : LampRec} (h : l.lamp = .unreported) : l.takenDown = l := by
  unfold LampRec.takenDown
  rw [h]

/-- R51: of a lamp that neither waits to strike nor strikes. -/
theorem lampDownTaken_plain {y : LampRec} (hy : (r.lamps.get p).takenDown = y) (hq : (r.lamps.get p).lamp ≠ .queued) (hs : (r.lamps.get p).lamp ≠ .striking)
    (h : partnerOf e.setup p = none ∨ (r.lamps.get p).primed = false ∧ (r.lamps.get p).ready = false) :
    lampDownTaken e p r = r.modLamp p (fun _ => { y with primed := false, ready := false }) := by
  have taken : (r.modLamp p LampRec.takenDown).lamps.get p = (r.lamps.get p).takenDown := by
    rw [Run.modLamp_get, if_pos rfl]
  unfold lampDownTaken
  dsimp only
  rw [if_neg hq, if_neg hs, workConditions_unlit, Run.modLamp_modLamp]
  · exact Run.modLamp_congr (by rw [hy])
  · rw [taken]; exact takenDown_unlit _
  · rw [taken, (takenDown_published _).1, (takenDown_published _).2]; exact h

/-- R51: of a QUEUED lamp. -/
theorem lampDownTaken_queued {y : LampRec} (hy : (r.lamps.get p).takenDown = y) (hq : (r.lamps.get p).lamp = .queued)
    (h : partnerOf e.setup p = none ∨ (r.lamps.get p).primed = false ∧ (r.lamps.get p).ready = false) :
    lampDownTaken e p r
      = (r.leaveStrike p).modLamp p (fun _ => { y with primed := false, ready := false }) := by
  have taken : ((r.modLamp p LampRec.takenDown).leaveStrike p).lamps.get p = (r.lamps.get p).takenDown := by
    rw [Run.leaveStrike_lamps, Run.modLamp_get, if_pos rfl]
  have swap : (r.modLamp p LampRec.takenDown).leaveStrike p = (r.leaveStrike p).modLamp p LampRec.takenDown := rfl
  unfold lampDownTaken
  dsimp only
  rw [if_pos hq, if_neg (by rw [hq]; decide), workConditions_unlit, swap, Run.modLamp_modLamp]
  · exact Run.modLamp_congr (by rw [Run.leaveStrike_lamps, hy])
  · rw [taken]; exact takenDown_unlit _
  · rw [taken, (takenDown_published _).1, (takenDown_published _).2]; exact h

/-- R51: of a STRIKING lamp, whose strike is cancelled. -/
theorem lampDownTaken_striking {y : LampRec} (hy : (r.lamps.get p).takenDown = y) (hs : (r.lamps.get p).lamp = .striking) (gate : r.gate = .striking p)
    (nothing : 0 < e.setup.params.staggerGap ∨ ∀ x ∈ r.strikeQueue, (r.lamps.get x.position).downPending = true)
    (h : partnerOf e.setup p = none ∨ (r.lamps.get p).primed = false ∧ (r.lamps.get p).ready = false) :
    lampDownTaken e p r = (r.setGate (if e.setup.params.staggerGap = 0 then .free else .gap 0)).modLamp p
      (fun _ => { y with primed := false, ready := false }) := by
  have taken : (r.modLamp p LampRec.takenDown).lamps.get p = (r.lamps.get p).takenDown := by
    rw [Run.modLamp_get, if_pos rfl]
  have pending : (r.lamps.get p).takenDown.downPending = true := by simp [LampRec.takenDown, hs]
  have nothing' : 0 < e.setup.params.staggerGap ∨ ∀ x ∈ (r.modLamp p LampRec.takenDown).strikeQueue,
      ((r.modLamp p LampRec.takenDown).lamps.get x.position).downPending = true := by
    refine nothing.imp id fun all x hx => ?_
    rw [Run.modLamp_get]
    split
    · exact pending
    · exact all x hx
  have ended : endStrikeOf e p (r.modLamp p LampRec.takenDown)
      = (r.setGate (if e.setup.params.staggerGap = 0 then .free else .gap 0)).modLamp p LampRec.takenDown := by
    unfold endStrikeOf
    rw [if_pos (show (r.modLamp p LampRec.takenDown).gate = .striking p from gate), enterGap_nothing nothing']
    rfl
  unfold lampDownTaken
  dsimp only
  rw [if_neg (show ¬ (r.lamps.get p).lamp = .queued by rw [hs]; decide), if_pos hs, ended, workConditions_unlit, Run.modLamp_modLamp]
  · exact Run.modLamp_congr (by rw [Run.setGate_lamps, hy])
  · exact taken ▸ takenDown_unlit _
  · show _ ∨ ((r.modLamp p LampRec.takenDown).lamps.get p).primed = false
      ∧ ((r.modLamp p LampRec.takenDown).lamps.get p).ready = false
    rw [taken, (takenDown_published _).1, (takenDown_published _).2]
    exact h

end

/-- R60: of a lamp that StrikesSound shows unlit nothing stands published. -/
theorem StrikesSound.unpublished {r : Run} (h : StrikesSound r) {p : Fin 8} (unlit : (r.lamps.get p).lamp ≠ .lit) :
    (r.lamps.get p).primed = false ∧ (r.lamps.get p).ready = false := by
  obtain ⟨_, _, shown⟩ := h.2 p
  exact ⟨Bool.eq_false_iff.2 fun hp => unlit (shown (.inl hp)), Bool.eq_false_iff.2 fun hp => unlit (shown (.inr hp))⟩

/-! ### Strike requests (R53) -/

theorem strikeRequest_lit {e : Env} {p : Fin 8} {cls : StrikeClass} {r : Run} (h : (r.lamps.get p).lamp ≠ .dark) :
    strikeRequest e p cls r = r := by
  unfold strikeRequest
  rw [beq_eq_false_iff_ne.2 h, Bool.and_false]
  rfl

/-- R53: a DARK lamp joins the queue of a gate that is not FREE. -/
theorem strikeRequest_joins {e : Env} {p : Fin 8} {cls : StrikeClass} {r : Run} (defined : definedPos e.setup p = true)
    (dark : (r.lamps.get p).lamp = .dark) (busy : r.gate ≠ .free) :
    strikeRequest e p cls r = { r with
      strikeQueue := r.strikeQueue ++ [{ position := p, cls := cls }]
      lamps := r.lamps.set p { r.lamps.get p with lamp := .queued } } := by
  unfold strikeRequest
  rw [defined, dark, if_pos (by rfl)]
  exact offerGrant_busy busy

/-! ### START and STOP taken (R31, R32) -/

section
variable {e : Env} {r : Run}

theorem noMotionDue_of_quiet (h : r.handoffs = []) : NoMotionDue r := fun x hx => by
  rw [h] at hx
  cases hx

theorem handChange_noMotionDue (p : Fin 8) (moved : Bool) (h : NoMotionDue r) : NoMotionDue (handChange e p moved r) := by
  intro x hx
  rcases List.mem_append.1 hx with hx | hx
  · exact h x hx
  · rcases List.mem_append.1 hx with hx | hx
    · simp only [List.mem_cons, List.not_mem_nil, or_false] at hx
      rcases hx with rfl | rfl <;> exact nofun
    · exact conditionEvent_block p x hx

theorem startTaken_goes {p : Fin 8} (h : (r.motions.get p).motion = .stopped ∨ (r.motions.get p).motion = .stopping) :
    startTaken e p r = handChange e p true (r.modMotion p MotionRec.toRunup) := by
  unfold startTaken motionOf
  rcases h with h | h <;> rw [h]

theorem startTaken_stays {p : Fin 8} (h : ¬ ((r.motions.get p).motion = .stopped ∨ (r.motions.get p).motion = .stopping)) :
    startTaken e p r = r := by
  unfold startTaken motionOf
  split
  · rename_i hm; exact absurd (.inl hm) h
  · rename_i hm; exact absurd (.inr hm) h
  all_goals rfl

theorem stopTaken_goes {p : Fin 8} (h : (r.motions.get p).motion = .runup ∨ (r.motions.get p).motion = .locked) :
    stopTaken e p r = handChange e p true (r.modMotion p MotionRec.toStopping) := by
  unfold stopTaken motionOf
  rcases h with h | h <;> rw [h]

theorem stopTaken_stays {p : Fin 8} (h : ¬ ((r.motions.get p).motion = .runup ∨ (r.motions.get p).motion = .locked)) :
    stopTaken e p r = r := by
  unfold stopTaken motionOf
  split
  · rename_i hm; exact absurd (.inl hm) h
  · rename_i hm; exact absurd (.inr hm) h
  all_goals rfl

theorem startTaken_noMotionDue (p : Fin 8) (h : NoMotionDue r) : NoMotionDue (startTaken e p r) := by
  by_cases goes : (r.motions.get p).motion = .stopped ∨ (r.motions.get p).motion = .stopping
  · rw [startTaken_goes goes]; exact handChange_noMotionDue p true h
  · rw [startTaken_stays goes]; exact h

theorem stopTaken_noMotionDue (p : Fin 8) (h : NoMotionDue r) : NoMotionDue (stopTaken e p r) := by
  by_cases goes : (r.motions.get p).motion = .runup ∨ (r.motions.get p).motion = .locked
  · rw [stopTaken_goes goes]; exact handChange_noMotionDue p true h
  · rw [stopTaken_stays goes]; exact h

theorem startTaken_motion (p q : Fin 8) : (startTaken e p r).motions.get q =
    if q = p ∧ ((r.motions.get p).motion = .stopped ∨ (r.motions.get p).motion = .stopping)
      then (r.motions.get p).toRunup else r.motions.get q := by
  by_cases goes : (r.motions.get p).motion = .stopped ∨ (r.motions.get p).motion = .stopping
  · rw [startTaken_goes goes, handChange_motions, Run.modMotion_get]
    simp only [goes, and_true, eq_comm (a := p)]
  · rw [startTaken_stays goes, if_neg fun h => goes h.2]

theorem stopTaken_motion (p q : Fin 8) : (stopTaken e p r).motions.get q =
    if q = p ∧ ((r.motions.get p).motion = .runup ∨ (r.motions.get p).motion = .locked)
      then (r.motions.get p).toStopping else r.motions.get q := by
  by_cases goes : (r.motions.get p).motion = .runup ∨ (r.motions.get p).motion = .locked
  · rw [stopTaken_goes goes, handChange_motions, Run.modMotion_get]
    simp only [goes, and_true, eq_comm (a := p)]
  · rw [stopTaken_stays goes, if_neg fun h => goes h.2]

end

/-! ### Outbound ORDER and VOID (R7, R8) -/

theorem exec_outboundOrder {s : State} (ha : s.acting) (st : Byte) (m : Payload) :
    exec (.outboundOrder st m) s = .next (State.judged { (takeOrder (Cell.make .order st m) s).state with
      port := (takeOrder (Cell.make .order st m) s).state.port.leaves .outbound
        (some (takeOrder (Cell.make .order st m) s).out) }) :=
  congrArg Host.Outcome.next (receive_acting ha .outbound .order st m)

theorem exec_outboundVoid {s : State} (ha : s.acting) (st : Byte) (m : Payload) :
    exec (.outboundVoid st m) s = .next (State.judged { (offerOrder (Cell.make .void st m) s).state with
      port := (offerOrder (Cell.make .void st m) s).state.port.leaves .outbound
        (some (offerOrder (Cell.make .void st m) s).out) }) :=
  congrArg Host.Outcome.next (receive_acting ha .outbound .void st m)

theorem chooseOrder_empty : chooseOrder [] = none := rfl

/-- R8: with no order of the part waiting a VOID leaves as it stands. -/
theorem exec_outboundVoid_idle {s : State} (ha : s.acting) (hr : s.contactRight) (none_waits : s.run.orders = []) (st : Byte)
    (m : Payload) : exec (.outboundVoid st m) s = .next (s.shows .outbound (Cell.make .void st m)) := by
  have forwards : offerOrder (Cell.make .void st m) s = forward (Cell.make .void st m) s := by
    unfold offerOrder
    rw [none_waits, chooseOrder_empty]
  rw [exec_outboundVoid ha, forwards]
  exact congrArg _ (shows_of_right .outbound _ hr)

section
variable {s : State} {st : Byte} {m : Payload} {d : DeskOrder}

theorem takeOrder_suited (hd : deskOrder s.setup st m = some d) :
    takeOrder (Cell.make .order st m) s = takeDeskOrder (Cell.make .order st m) d s := by
  unfold takeOrder
  rw [make_station, make_payload, hd]

/-- R129: what comes of a blocked order's cell is what comes of a VOID. -/
theorem exec_order_blocked {why : BlockReason} (ha : s.acting) (hd : deskOrder s.setup st m = some d)
    (hs : screened s.setup s.run d (m[2].getLsbD 1) = some why) :
    exec (.outboundOrder st m) s = exec (.outboundVoid 0 (Vector.replicate 13 0)) (s.act (blockOrder d why)) := by
  have taken : takeDeskOrder (Cell.make .order st m) d s = offerOrder Cell.void (s.act (blockOrder d why)) := by
    unfold takeDeskOrder forceFlag
    rw [make_payload, hs]
  rw [exec_outboundOrder ha, takeOrder_suited hd, taken, void_eq]
  exact (exec_outboundVoid (s := s.act (blockOrder d why)) ha _ _).symm

/-- R131: and of a passed LAMP UP's cell, once the strike request has been made. -/
theorem exec_order_lampUp {x : Station} {p : Fin 8} (ha : s.acting)
    (hd : deskOrder s.setup st m = some (.position x p .lampUp))
    (hs : screened s.setup s.run (.position x p .lampUp) (m[2].getLsbD 1) = none) :
    exec (.outboundOrder st m) s
      = exec (.outboundVoid 0 (Vector.replicate 13 0)) (s.act (fun e r => strikeRequest e p .ordinary r)) := by
  have taken : takeDeskOrder (Cell.make .order st m) (.position x p .lampUp) s
      = offerOrder Cell.void (s.act (fun e r => strikeRequest e p .ordinary r)) := by
    unfold takeDeskOrder forceFlag
    rw [make_payload, hs]
  rw [exec_outboundOrder ha, takeOrder_suited hd, taken, void_eq]
  exact (exec_outboundVoid (s := s.act (fun e r => strikeRequest e p .ordinary r)) ha _ _).symm

/-- R130: every other order that passes is forwarded and taken. -/
theorem exec_order_passed (ha : s.acting) (hd : deskOrder s.setup st m = some d)
    (hs : screened s.setup s.run d (m[2].getLsbD 1) = none) (other : ∀ x p, d ≠ .position x p .lampUp) :
    exec (.outboundOrder st m) s = .next (State.judged { s.act (passOrder d) with
      port := s.port.leaves .outbound (some (Cell.make .order st m)) }) := by
  have taken : takeDeskOrder (Cell.make .order st m) d s
      = forward (Cell.make .order st m) (s.act (passOrder d)) := by
    unfold takeDeskOrder forceFlag
    rw [make_payload, hs]
    cases d with
    | select => rfl
    | position x p o =>
      cases o with
      | lampUp => exact absurd rfl (other x p)
      | start | stop | lampDown | dowserOpen | dowserClose | select => rfl
  rw [exec_outboundOrder ha, takeOrder_suited hd, taken]
  rfl

/-- Such an order that hands nothing on and raises nothing. -/
theorem exec_order_quiet (ha : s.acting) (hr : s.contactRight) (hd : deskOrder s.setup st m = some d)
    (hs : screened s.setup s.run d (m[2].getLsbD 1) = none) (other : ∀ x p, d ≠ .position x p .lampUp) {r : Run}
    (passed : passOrder d s.env s.run = r) (quiet : r.handoffs = []) (slots : r.slots = s.run.slots) :
    exec (.outboundOrder st m) s = .next (State.shows { s with run := r } .outbound (Cell.make .order st m)) := by
  have acted : s.act (passOrder d) = { s with run := r } := by
    rw [act_quiet (by rw [passed]; exact quiet), passed]
  have right : ({ s with run := r } : State).contactRight := by
    have same := judged_same_slots hr slots
    exact congrArg (fun t : State => t.port.contact) same.symm
  rw [exec_order_passed ha hd hs other, acted]
  exact congrArg _ (shows_of_right .outbound _ right)

/-- A suited position order is for a defined position. -/
theorem deskOrder_defined {x : Station} {p : Fin 8} {o : Order} {su : Setup}
    (h : deskOrder su st m = some (.position x p o)) : definedPos su p = true := by
  have at_station : ∃ y, positionAt su y = some p := by
    unfold deskOrder at h
    split at h
    · obtain ⟨c, _, hc⟩ := Option.map_eq_some_iff.1 h
      cases hc
    · obtain ⟨q, hq, hx⟩ := Option.map_eq_some_iff.1 h
      cases hx
      exact ⟨_, hq⟩
    · cases h
  obtain ⟨y, hy⟩ := at_station
  have station := List.find?_some hy
  unfold definedPos
  cases hp : su.positions.get p with
  | none => rw [hp] at station; cases station
  | some => rfl

end

end Sys2Proof.Machine

namespace Sys2Proof.Proofs

open Sys2Proof.Machine

/-- Settles O36: the cell of a blocked order goes the way of a VOID once the notice is queued, or QUEUE raised. -/
theorem blockedOrderBecomesVoid : Obligations.BlockedOrderBecomesVoid := by
  intro st m d why s ha hr hq hd hs
  have blocked := exec_order_blocked ha hd hs
  have acted : s.act (blockOrder d why) = { s with run := blockOrder d why s.env s.run } :=
    act_quiet (by unfold blockOrder; rw [queueNotice_handoffs]; exact hq)
  have room : s.run.notices.length < 16 → blockOrder d why s.env s.run = { s.run with notices := s.run.notices
      ++ [{ sweep := s.port.sweep, body := .blocked d.station d.order (columnOf s.setup s.run d) why }] } :=
    fun h => if_pos h
  refine ⟨fun h => ?_, fun h none_waits => ?_, fun full => ⟨s.act (blockOrder d why), blocked, ?_⟩⟩
  · rw [blocked, acted, room h]
  · rw [blocked, acted, room h]
    exact exec_outboundVoid_idle (s := { s with run := { s.run with notices := s.run.notices
      ++ [{ sweep := s.port.sweep, body := .blocked d.station d.order (columnOf s.setup s.run d) why }] } })
      ha hr none_waits _ _
  · have discarded : blockOrder d why s.env s.run = raise s.env 1 none none s.run :=
      if_neg (Nat.not_lt.2 full)
    rw [acted, discarded]
    refine ⟨?_, raisedIn_of (full := true) (obs := true) (r1 := s.run) (x := none) rfl .refl, fun k other => ?_⟩
    · unfold raise
      split <;> rfl
    · exact (raise_slot 1 k none none).trans (if_neg fun h => other h.1.symm)

/-- Settles O37: only START and STOP move the machine, and what they hand on waits for no motion block. -/
theorem passedStartStopTaken : Obligations.PassedStartStopTaken := by
  intro st m x p o s ha hr hq hd hs ho
  have other : ∀ y q, DeskOrder.position x p o ≠ .position y q .lampUp := by
    rintro y q ⟨⟩
    rcases ho with ⟨⟨⟩⟩ | ⟨⟨⟩⟩
  have undisturbed : Undisturbed s (s.act (passOrder (.position x p o))) := act_undisturbed (passOrder_acts _ .refl)
  have none_due : NoMotionDue (supersede x .motion s.run) := noMotionDue_of_quiet hq
  have motions : ∀ q, (s.act (passOrder (.position x p o))).run.motions.get q
      = if o = .start then (if q = p ∧ ((s.run.motions.get p).motion = .stopped ∨ (s.run.motions.get p).motion = .stopping)
            then (s.run.motions.get p).toRunup else s.run.motions.get q)
        else (if q = p ∧ ((s.run.motions.get p).motion = .runup ∨ (s.run.motions.get p).motion = .locked)
            then (s.run.motions.get p).toStopping else s.run.motions.get q) := by
    intro q
    rcases ho with rfl | rfl
    · show (drain s.env (startTaken s.env p (supersede x Family.motion s.run))).motions.get q = _
      rw [(drain_acts_quietly (obs := true) (startTaken_noMotionDue p none_due)).motions, startTaken_motion]
      rfl
    · show (drain s.env (stopTaken s.env p (supersede x Family.motion s.run))).motions.get q = _
      rw [(drain_acts_quietly (obs := true) (stopTaken_noMotionDue p none_due)).motions, stopTaken_motion]
      rfl
  refine ⟨_, exec_order_passed ha hd hs other, rfl, rfl, fun start goes => ?_, fun start stays => ?_, fun stop goes => ?_,
    fun stop stays => ?_, fun q hqp => ?_, undisturbed.ladderKept⟩ <;> refine (motions _).trans ?_
  · rw [if_pos start, if_pos ⟨rfl, goes⟩]
    rfl
  · rw [if_pos start, if_neg fun h => h.2.elim stays.1 stays.2]
  · rw [if_neg (by rw [stop]; decide), if_pos ⟨rfl, goes⟩]
    rfl
  · rw [if_neg (by rw [stop]; decide), if_neg fun h => h.2.elim stays.1 stays.2]
  · simp only [hqp, false_and, if_false, ite_self]

/-- Settles O38: each order's own effect on the lamp record; nothing is handed on, so nothing follows. -/
theorem passedLampOrderTaken : Obligations.PassedLampOrderTaken := by
  intro st m x p o s ha hr hq hd hs
  refine ⟨fun ho => ?_, fun ho => ?_, fun ho alone => ⟨fun plain => ?_, fun settles => ?_, fun unreported => ?_⟩,
    fun ho sound => ⟨fun queued => ?_, fun striking nothing => ?_⟩⟩ <;> subst ho
  · refine exec_order_quiet ha hr hd hs nofun (r := supersede x .dowser s.run) rfl hq rfl |>.trans ?_
    rw [set_get_self]
    rfl
  · exact exec_order_quiet ha hr hd hs nofun (r := dowserCloseTaken p (supersede x .dowser s.run)) rfl hq rfl
  · have taken := lampDownTaken_plain (e := s.env) (p := p) (r := supersede x .lamp s.run)
      (takenDown_dark (plain.imp_right .inl)) (fun h => by rcases plain with g | g <;> exact nomatch g.symm.trans h)
      (fun h => by rcases plain with g | g <;> exact nomatch g.symm.trans h) alone
    exact exec_order_quiet ha hr hd hs nofun taken hq rfl
  · have taken := lampDownTaken_plain (e := s.env) (p := p) (r := supersede x .lamp s.run) (takenDown_settling settles)
      (fun h => nomatch settles.symm.trans h) (fun h => nomatch settles.symm.trans h) alone
    exact exec_order_quiet ha hr hd hs nofun taken hq rfl
  · have taken := lampDownTaken_plain (e := s.env) (p := p) (r := supersede x .lamp s.run)
      (takenDown_unreported unreported) (fun h => nomatch unreported.symm.trans h)
      (fun h => nomatch unreported.symm.trans h) alone
    exact exec_order_quiet ha hr hd hs nofun taken hq rfl
  · have taken := lampDownTaken_queued (e := s.env) (p := p) (r := supersede x .lamp s.run)
      (takenDown_dark (.inr (.inr queued))) queued (.inr (sound.unpublished (by rw [queued]; decide)))
    exact exec_order_quiet ha hr hd hs nofun taken hq rfl
  · have taken := lampDownTaken_striking (e := s.env) (p := p) (r := supersede x .lamp s.run)
      (takenDown_striking striking) striking ((sound.2 p).2.1.2 striking) nothing
      (.inr (sound.unpublished (by rw [striking]; decide)))
    exact exec_order_quiet ha hr hd hs nofun taken hq rfl

/-- Settles O39: a lamp that is not DARK asks for nothing; a DARK one joins the queue of a gate that is not FREE. -/
theorem passedLampUpRerouted : Obligations.PassedLampUpRerouted := by
  intro st m x p s ha hr hq hd hs
  have goes := exec_order_lampUp ha hd hs
  refine ⟨fun lit => ?_, fun dark busy => ?_⟩
  · have asked : s.act (fun e r => strikeRequest e p .ordinary r) = s := by
      have none_asked : strikeRequest s.env p .ordinary s.run = s.run := strikeRequest_lit lit
      rw [act_quiet (by rw [none_asked]; exact hq), none_asked]
    rw [asked] at goes
    exact ⟨goes, fun none_waits => goes.trans (exec_outboundVoid_idle ha hr none_waits _ _)⟩
  · have joined := strikeRequest_joins (e := s.env) (cls := .ordinary) (deskOrder_defined hd) dark busy
    have asked : s.act (fun e r => strikeRequest e p .ordinary r) = { s with run := { s.run with
        strikeQueue := s.run.strikeQueue ++ [{ position := p, cls := .ordinary }]
        lamps := s.run.lamps.set p { s.run.lamps.get p with lamp := .queued } } } := by
      rw [act_quiet (by rw [joined]; exact hq), joined]
    rw [asked] at goes
    exact ⟨goes, fun none_waits => goes.trans (exec_outboundVoid_idle (s := { s with run := { s.run with
      strikeQueue := s.run.strikeQueue ++ [{ position := p, cls := .ordinary }]
      lamps := s.run.lamps.set p { s.run.lamps.get p with lamp := .queued } } }) ha hr none_waits _ _)⟩

end Sys2Proof.Proofs
end

section
/-! PROOFS. An order of the part in a VOID's place (O41). -/

namespace Sys2Proof.Machine

/-! ### The order chosen (R134) -/

theorem chooseOrder_at {before after : List OrderEntry} {x : OrderEntry}
    (h : x.order.family = .select ∧ (∀ y ∈ before, y.order.family ≠ .select)
      ∨ before = [] ∧ ∀ y ∈ before ++ x :: after, y.order.family ≠ .select) :
    chooseOrder (before ++ x :: after) = some x := by
  have no_select : ∀ y : OrderEntry, y.order.family ≠ .select → y.isSelect = false := fun y hy => beq_eq_false_iff_ne.2 hy
  unfold chooseOrder
  rcases h with ⟨select, none_before⟩ | ⟨rfl, none_at_all⟩
  · have skipped : before.find? OrderEntry.isSelect = none :=
      List.find?_eq_none.2 fun y hy => by simp [no_select y (none_before y hy)]
    have first : (before ++ x :: after).find? OrderEntry.isSelect = some x := by
      rw [List.find?_append, skipped, Option.none_or]
      exact List.find?_cons_of_pos (beq_iff_eq.2 select)
    rw [first]
  · rw [List.find?_eq_none.2 fun y hy => by simp [no_select y (none_at_all y hy)]]
    rfl

theorem erase_at {before after : List OrderEntry} {x : OrderEntry} (h : x ∉ before) :
    (before ++ x :: after).erase x = before ++ after := by
  rw [List.erase_append_right _ h, List.erase_cons_head]

/-! ### The insertion (R135) -/

theorem exec_void_inserts {s : State} {x : OrderEntry} (ha : s.acting) (chosen : chooseOrder s.run.orders = some x) (st : Byte)
    (m : Payload) : exec (.outboundVoid st m) s = .next (State.judged { s.act (insertOrder x) with
      port := s.port.leaves .outbound (some (orderCell x)) }) := by
  have offered : offerOrder (Cell.make .void st m) s = { out := orderCell x, state := s.act (insertOrder x) } := by
    unfold offerOrder
    rw [chosen]
  rw [exec_outboundVoid ha, offered]
  rfl

/-- An insertion that hands nothing on. -/
theorem exec_void_quiet {s : State} {x : OrderEntry} (ha : s.acting) (hr : s.contactRight)
    (chosen : chooseOrder s.run.orders = some x) {r : Run} (inserted : insertOrder x s.env s.run = r)
    (quiet : r.handoffs = []) (slots : r.slots = s.run.slots) (st : Byte) (m : Payload) :
    exec (.outboundVoid st m) s = .next (State.shows { s with run := r } .outbound (orderCell x)) := by
  have acted : s.act (insertOrder x) = { s with run := r } := by
    rw [act_quiet (by rw [inserted]; exact quiet), inserted]
  have right : ({ s with run := r } : State).contactRight :=
    congrArg (fun t : State => t.port.contact) (judged_same_slots hr slots).symm
  rw [exec_void_inserts ha chosen, acted]
  exact congrArg _ (shows_of_right .outbound _ right)

section
variable {e : Env} {st : Station} {r : Run}

theorem atPosition_some {p : Fin 8} {f : Fin 8 → Run → Run} (h : positionAt e.setup st = some p) :
    atPosition e st f r = f p r := by
  unfold atPosition
  rw [h]

theorem atPosition_none {f : Fin 8 → Run → Run} (h : positionAt e.setup st = none) : atPosition e st f r = r := by
  unfold atPosition
  rw [h]

theorem atChain_some {c : Fin 4} {f : Fin 4 → Run → Run} (h : chainAt e.setup st = some c) :
    atChain e st f r = f c r := by
  unfold atChain
  rw [h]

theorem atChain_none {f : Fin 4 → Run → Run} (h : chainAt e.setup st = none) : atChain e st f r = r := by
  unfold atChain
  rw [h]

/-- R112: SENT of a SWITCHING chain's QUEUED SELECT. -/
theorem selectInserted_sent {c : Fin 4} (switching : (r.chains.get c).state = .switching)
    (queued : (r.chains.get c).select = .queued) :
    selectInserted c r = r.modChain c (fun x => { x with select := .sent }) :=
  if_pos ⟨switching, queued⟩

theorem selectInserted_stays {c : Fin 4} (h : (r.chains.get c).state ≠ .switching ∨ (r.chains.get c).select ≠ .queued) :
    selectInserted c r = r :=
  if_neg fun ⟨switching, queued⟩ => h.elim (· switching) (· queued)

end

end Sys2Proof.Machine

namespace Sys2Proof.Proofs

open Sys2Proof.Machine

/-- Settles O41: the entry chosen is the oldest SELECT, else the oldest of all, and its block takes it. -/
theorem outboundVoidFilled : Obligations.OutboundVoidFilled := by
  intro st m s ha hr hq
  refine ⟨fun none_waits => exec_outboundVoid_idle ha hr none_waits st m, fun before x after split fresh first => ?_⟩
  have chosen : chooseOrder s.run.orders = some x := by rw [split]; rw [split] at first; exact chooseOrder_at first
  have removed : removeOrder x s.run = { s.run with orders := before ++ after } := by
    unfold removeOrder
    rw [split, erase_at fresh]
  have inserted : insertOrder x s.env s.run = handInsertion s.env x { s.run with orders := before ++ after } := by
    unfold insertOrder
    rw [removed]
  have ends : ∀ r : Run, handInsertion s.env x { s.run with orders := before ++ after } = r → r.handoffs = [] →
      r.slots = s.run.slots → exec (.outboundVoid st m) s = .next (State.shows { s with run := r } .outbound (orderCell x)) :=
    fun r hx quiet slots => exec_void_quiet ha hr chosen (inserted.trans hx) quiet slots st m
  have undisturbed : Undisturbed s (s.act (insertOrder x)) := act_undisturbed (insertOrder_acts x .refl)
  refine ⟨fun plain => ?_, fun p close at_p => ?_, fun i c select at_c => ⟨fun switching queued => ?_, fun stays => ?_⟩,
    fun p moves at_p => ⟨fun stays => ?_, fun goes => ?_⟩, fun no_p no_c => ?_,
    ⟨_, exec_void_inserts ha chosen st m, rfl, rfl, undisturbed.ladderKept⟩⟩
  · refine ends _ ?_ hq rfl
    unfold handInsertion
    rcases plain with h | h | h <;> rw [h]
  · refine ends (dowserCloseTaken p { s.run with orders := before ++ after }) ?_ hq rfl
    unfold handInsertion
    rw [close]
    exact atPosition_some at_p
  · refine ends (Run.modChain c (fun x => { x with select := .sent }) { s.run with orders := before ++ after }) ?_ hq rfl
    unfold handInsertion
    rw [select]
    exact (atChain_some at_c).trans (selectInserted_sent switching queued)
  · refine ends _ ?_ hq rfl
    unfold handInsertion
    rw [select]
    exact (atChain_some at_c).trans (selectInserted_stays stays)
  · refine ends _ ?_ hq rfl
    unfold handInsertion
    rcases moves with h | h <;> rw [h]
    · exact (atPosition_some at_p).trans (startTaken_stays fun hm => stays (.inl ⟨h, hm⟩))
    · exact (atPosition_some at_p).trans (stopTaken_stays fun hm => stays (.inr ⟨h, hm⟩))
  · have none_due : ∀ f, NoMotionDue (handChange s.env p true (Run.modMotion p f { s.run with orders := before ++ after })) :=
      fun f => handChange_noMotionDue p true (noMotionDue_of_quiet hq)
    rcases goes with ⟨h, hm⟩ | ⟨h, hm⟩
    · have taken : insertOrder x s.env s.run
          = handChange s.env p true (Run.modMotion p MotionRec.toRunup { s.run with orders := before ++ after }) := by
        rw [inserted]
        unfold handInsertion
        rw [h]
        exact (atPosition_some at_p).trans (startTaken_goes hm)
      refine ⟨_, _, exec_void_inserts ha chosen st m, rfl, ?_⟩
      rw [taken, if_pos h]
      refine ⟨rfl, rfl, ?_⟩
      rw [← taken]
      exact (drain_acts_quietly (obs := true) (taken ▸ none_due _)).motions
    · have taken : insertOrder x s.env s.run
          = handChange s.env p true (Run.modMotion p MotionRec.toStopping { s.run with orders := before ++ after }) := by
        rw [inserted]
        unfold handInsertion
        rw [h]
        exact (atPosition_some at_p).trans (stopTaken_goes hm)
      refine ⟨_, _, exec_void_inserts ha chosen st m, rfl, ?_⟩
      rw [taken, if_neg (by rw [h]; decide)]
      refine ⟨rfl, rfl, ?_⟩
      rw [← taken]
      exact (drain_acts_quietly (obs := true) (taken ▸ none_due _)).motions
  · refine ends _ ?_ hq rfl
    unfold handInsertion
    cases x.order with
    | start | stop | dowserClose => exact atPosition_none no_p
    | select i => exact atChain_none no_c
    | dowserOpen | lampUp | lampDown => rfl

end Sys2Proof.Proofs
end

section
/-! PROOFS. A report taken by the Motion Tracker: the record it leaves, and what it hands on (O42, O43). -/

namespace Sys2Proof.Machine

/-! ### What the Motion Tracker touches (R44, R45) -/

/-- The Motion Tracker writes its records, raises, queues notices and orders, and hands on to other blocks. -/
structure Tracked (r t : Run) : Prop where
  frame : t = { r with motions := t.motions, slots := t.slots, notices := t.notices, orders := t.orders
                       handoffs := t.handoffs }
  handed : r.handoffs <+: t.handoffs
  quiet : NoMotionDue r → NoMotionDue t

section
variable {e : Env} {r r0 : Run}

theorem Tracked.refl (r : Run) : Tracked r r := ⟨rfl, List.prefix_rfl, id⟩

theorem Tracked.trans {t u : Run} (h : Tracked r t) (g : Tracked t u) : Tracked r u := by
  refine ⟨?_, h.handed.trans g.handed, g.quiet ∘ h.quiet⟩
  rw [g.frame, h.frame]

theorem Tracked.motion (p : Fin 8) (f : MotionRec → MotionRec) (h : Tracked r0 r) : Tracked r0 (r.modMotion p f) :=
  h.trans ⟨rfl, List.prefix_rfl, id⟩

theorem Tracked.raise (k : Fin 82) (v : Option Int) (x : Option (Fin 16 × Severity)) (h : Tracked r0 r) :
    Tracked r0 (Machine.raise e k v x r) := by
  refine h.trans ?_
  unfold Machine.raise
  split
  · exact ⟨rfl, List.prefix_rfl, id⟩
  · exact .refl r

theorem Tracked.notice (b : NoticeBody) (h : Tracked r0 r) : Tracked r0 (queueNotice e b r) := by
  unfold queueNotice
  split
  · exact h.trans ⟨rfl, List.prefix_rfl, id⟩
  · exact h.raise ..

theorem Tracked.order (p : Fin 8) (o : Order) (h : Tracked r0 r) : Tracked r0 (queueFor e p o r) := by
  unfold queueFor
  split
  · exact h.trans ⟨rfl, List.prefix_rfl, id⟩
  · exact h

theorem Tracked.handAll {hs : List Handoff} (hb : ∀ x ∈ hs, x.block ≠ .motion) (h : Tracked r0 r) :
    Tracked r0 (r.handAll hs) :=
  h.trans ⟨rfl, List.prefix_append _ _, fun quiet x hx => (List.mem_append.1 hx).elim (quiet x) (hb x)⟩

theorem Tracked.hand {x : Handoff} (hb : x.block ≠ .motion) (h : Tracked r0 r) : Tracked r0 (r.hand x) :=
  h.handAll (hs := [x]) (by simpa using hb)

theorem handChange_tracked (p : Fin 8) (moved : Bool) (h : Tracked r0 r) : Tracked r0 (handChange e p moved r) := by
  refine h.handAll fun x hx => ?_
  rcases List.mem_append.1 hx with hx | hx
  · simp only [List.mem_cons, List.not_mem_nil, or_false] at hx
    rcases hx with rfl | rfl <;> exact nofun
  · exact conditionEvent_block p x hx

theorem handIfChanged_tracked (p : Fin 8) (before : MotionRec) (h : Tracked r0 r) :
    Tracked r0 (handIfChanged e p before r) := by
  unfold handIfChanged
  dsimp only
  split
  · exact handChange_tracked p _ h
  · exact h

theorem unreference_tracked (p : Fin 8) (why : UnrefReason) (h : Tracked r0 r) :
    Tracked r0 (unreference e p why r) := by
  unfold unreference loseReference
  dsimp only
  split
  · refine (h.motion p _).handAll (fun x hx => ?_) |>.notice _
    simp only [List.mem_cons, List.not_mem_nil, or_false] at hx
    rcases hx with rfl | rfl <;> exact nofun
  · exact h

theorem enterBroken_tracked (p : Fin 8) (h : Tracked r0 r) : Tracked r0 (enterBroken e p r) :=
  (unreference_tracked p _ ((((h.motion p _).raise ..).order p .stop).order p .dowserClose)).hand nofun

theorem unorderedStop_tracked (p : Fin 8) (h : Tracked r0 r) : Tracked r0 (unorderedStop e p r) :=
  ((h.motion p _).raise ..).hand nofun

theorem gapStep_tracked (p : Fin 8) (h : Tracked r0 r) : Tracked r0 (gapStep e p r) := by
  unfold gapStep
  dsimp only
  split
  · split
    · exact (h.motion p _).notice _
    · exact h.motion p _
  · exact h.motion p _

theorem countStep_tracked (p : Fin 8) (now : BitVec 16) (k : Count) (h : Tracked r0 r) :
    Tracked r0 (countStep e p now k r) := by
  unfold countStep
  cases k with
  | first | still => exact h.motion p _
  | advance d => exact (h.motion p _).motion p _
  | jump => exact unreference_tracked p _ (h.motion p _)

theorem motionStep_tracked (p : Fin 8) (now : Byte) (k : Count) (h : Tracked r0 r) :
    Tracked r0 (motionStep e p now k r) := by
  unfold motionStep
  dsimp only
  split
  · split
    · exact h.motion p _
    · exact h
  · split
    · exact h.motion p _
    · exact h
  · unfold reportInRunup
    split
    · exact enterBroken_tracked p h
    · split
      · exact unorderedStop_tracked p h
      · split
        · exact h.motion p _
        · exact h
  · unfold reportInLocked
    split
    · exact enterBroken_tracked p h
    · split
      · exact unorderedStop_tracked p h
      · split
        · exact h.motion p _
        · exact h
  · unfold reportInStopping
    split
    · exact h.motion p _
    · split
      · exact h.motion p _
      · exact h
  · unfold reportInBroken
    split
    · exact (h.motion p _).notice _
    · exact h

theorem countStall_tracked (p : Fin 8) (h : Tracked r0 r) : Tracked r0 (countStall e p r) := by
  unfold countStall
  dsimp only
  split
  · exact enterBroken_tracked p (h.motion p _)
  · exact h.motion p _

theorem stallStep_tracked (p : Fin 8) (k : Count) (h : Tracked r0 r) : Tracked r0 (stallStep e p k r) := by
  unfold stallStep
  split
  · cases k with
    | advance d => exact h.motion p _
    | first | still | jump => exact countStall_tracked p h
  · exact h

theorem takeReport_tracked (p : Fin 8) (now : Byte) (frames : BitVec 16) (h : Tracked r0 r) :
    Tracked r0 (takeReport e p now frames r) := by
  unfold takeReport
  dsimp only
  refine Tracked.handAll (fun x hx => ?_) (handIfChanged_tracked p _ ((stallStep_tracked p _ (motionStep_tracked p now _
    (countStep_tracked p frames _ (gapStep_tracked p (h.hand (x := .lampReport p (sigLamp now) (sigDowser now)) nofun))))).motion p _))
  unfold reportHandoffs at hx
  split at hx <;> simp only [List.mem_append, List.mem_cons, List.not_mem_nil, or_false, List.append_nil] at hx
  · rcases hx with (rfl | rfl) | rfl <;> exact nofun
  · rcases hx with rfl | rfl <;> exact nofun

end

/-! ### The record a report leaves (R25 to R42) -/

/-- R42: the gap. -/
def MotionRec.gapped (m : MotionRec) : MotionRec :=
  if m.silent || m.resyncDue then m.resynced else { m with miss := 0 }

/-- R26 to R28: the count. -/
def MotionRec.counted (now : BitVec 16) (k : Count) (m : MotionRec) : MotionRec :=
  match k with
  | .first | .still => { m with lastCount := some now }
  | .advance d => { m with lastCount := some now, value := advanceValue m.value d }
  | .jump => { m with lastCount := some now, referenced := false }

/-- R39: entry to BROKEN. -/
def MotionRec.broke (m : MotionRec) : MotionRec := { m.toBroken with referenced := false }

/-- R30 to R40: the motion. -/
def MotionRec.moved (now : Byte) (k : Count) (m : MotionRec) : MotionRec :=
  match m.motion with
  | .unreported => if k = .first then m.adopted now else m
  | .stopped => if sigMotor now then m.toRunup else m
  | .runup =>
    if lost sigFilm m.signals now then m.broke
    else if lost sigMotor m.signals now then m.toStopping
    else if sigSpeed now then m.toLocked else m
  | .locked =>
    if lost sigFilm m.signals now then m.broke
    else if lost sigMotor m.signals now then m.toStopping
    else if !sigSpeed now && sigMotor now then m.toRunup else m
  | .stopping =>
    if !sigMotor now && k == .still then m.toStopped
    else if sigMotor now && !sigMotor m.signals then m.toRunup else m
  | .broken => if sigFilm now && !sigMotor now then m.toStopped else m

/-- R38: one more report that brought no film. -/
def MotionRec.stallCounted (w : Nat) (m : MotionRec) : MotionRec :=
  let y := { m with stall := m.stall + 1, stallFlag := m.stallFlag || decide (w ≤ m.stall + 1) }
  if 2 * w ≤ m.stall + 1 then y.broke else y

/-- R38: the stall window. -/
def MotionRec.stalled (w : Nat) (k : Count) (m : MotionRec) : MotionRec :=
  if m.motion = .locked then
    match k with
    | .advance _ => { m with stall := 0, stallFlag := false }
    | .first | .still | .jump => m.stallCounted w
  else m

section
variable {e : Env} {r : Run} {p : Fin 8}

/-- An operation writes p's motion record alone, by this function. -/
def Writes (p : Fin 8) (f : MotionRec → MotionRec) (r t : Run) : Prop :=
  t.motions = r.motions.set p (f (r.motions.get p))

theorem Writes.get {f : MotionRec → MotionRec} {t : Run} (h : Writes p f r t) (q : Fin 8) :
    t.motions.get q = if p = q then f (r.motions.get p) else r.motions.get q := by
  rw [show t.motions = _ from h, get_set_fin]

theorem Writes.trans {f g : MotionRec → MotionRec} {t u : Run} (h : Writes p f r t) (h' : Writes p g t u) :
    Writes p (fun m => g (f m)) r u := by
  unfold Writes at *
  rw [h', h, get_set_fin, if_pos rfl, Vector.set_set]

theorem Writes.congr {f g : MotionRec → MotionRec} {t : Run} (h : Writes p f r t)
    (same : f (r.motions.get p) = g (r.motions.get p)) : Writes p g r t := by
  unfold Writes at *
  rw [h, same]

theorem Writes.mod (p : Fin 8) (f : MotionRec → MotionRec) (r : Run) : Writes p f r (r.modMotion p f) := rfl

theorem Writes.of_same {t : Run} (h : t.motions = r.motions) : Writes p id r t := by
  unfold Writes
  rw [h]
  exact (set_get_self _ _).symm

theorem unreference_writes (why : UnrefReason) :
    Writes p (fun m => { m with referenced := false }) r (unreference e p why r) := by
  unfold unreference loseReference
  dsimp only
  split
  · exact queueNotice_motions _
  · rename_i unreferenced
    refine (Writes.of_same rfl).congr ?_
    rw [Bool.not_eq_true] at unreferenced
    show r.motions.get p = { r.motions.get p with referenced := false }
    rw [← unreferenced]

theorem enterBroken_writes : Writes p MotionRec.broke r (enterBroken e p r) := by
  have broken : Writes p MotionRec.toBroken r (queueFor e p .dowserClose (queueFor e p .stop
      (raisePosition e (slotBreak p) p (r.modMotion p MotionRec.toBroken)))) := by
    unfold Writes
    rw [queueFor_motions, queueFor_motions, raisePosition_motions]
    rfl
  exact broken.trans (unreference_writes .brk)

theorem unorderedStop_writes : Writes p MotionRec.toStopping r (unorderedStop e p r) := by
  show (raisePosition e (slotHalt p) p (r.modMotion p MotionRec.toStopping)).motions = _
  rw [raisePosition_motions]
  rfl

theorem gapStep_writes : Writes p MotionRec.gapped r (gapStep e p r) := by
  unfold gapStep
  dsimp only
  split
  · rename_i gap
    have resynced : Writes p MotionRec.gapped r (r.modMotion p MotionRec.resynced) := by
      refine Writes.congr (f := MotionRec.resynced) rfl ?_
      unfold MotionRec.gapped
      rw [if_pos gap]
    split
    · exact (queueNotice_motions _).trans resynced
    · exact resynced
  · rename_i no_gap
    refine Writes.congr (f := fun m => { m with miss := 0 }) rfl ?_
    unfold MotionRec.gapped
    rw [if_neg no_gap]

theorem countStep_writes (now : BitVec 16) (k : Count) : Writes p (MotionRec.counted now k) r (countStep e p now k r) := by
  have last : Writes p (fun m => { m with lastCount := some now }) r (r.modMotion p fun m => { m with lastCount := some now }) :=
    rfl
  cases k with
  | first | still => exact last
  | advance d => exact last.trans (g := fun m => { m with value := advanceValue m.value d }) rfl
  | jump => exact last.trans (unreference_writes .jump)

theorem motionStep_writes (now : Byte) (k : Count) : Writes p (MotionRec.moved now k) r (motionStep e p now k r) := by
  have stays : Writes p id r r := .of_same rfl
  unfold motionStep motionOf
  dsimp only
  cases hm : (r.motions.get p).motion with
  | unreported =>
    dsimp only
    split
    · rename_i first
      exact Writes.congr (f := MotionRec.adopted now) rfl (by simp only [MotionRec.moved, hm, first, if_true])
    · rename_i later
      exact stays.congr (by simp only [MotionRec.moved, hm, later, if_false, id])
  | stopped =>
    dsimp only
    split
    · rename_i motor
      exact Writes.congr (f := MotionRec.toRunup) rfl (by simp only [MotionRec.moved, hm, motor, if_true])
    · rename_i motor
      exact stays.congr (by simp only [MotionRec.moved, hm, motor, if_false, id, Bool.false_eq_true])
  | runup =>
    dsimp only
    unfold reportInRunup
    split
    · rename_i film
      exact enterBroken_writes.congr (by simp only [MotionRec.moved, hm, film, if_true])
    · rename_i film
      split
      · rename_i motor
        exact unorderedStop_writes.congr (by simp only [MotionRec.moved, hm, film, motor, if_true, if_false, Bool.false_eq_true])
      · rename_i motor
        split
        · rename_i speed
          exact Writes.congr (f := MotionRec.toLocked) rfl
            (by simp only [MotionRec.moved, hm, film, motor, speed, if_true, if_false, Bool.false_eq_true])
        · rename_i speed
          exact stays.congr (by simp only [MotionRec.moved, hm, film, motor, speed, if_false, id, Bool.false_eq_true])
  | locked =>
    dsimp only
    unfold reportInLocked
    split
    · rename_i film
      exact enterBroken_writes.congr (by simp only [MotionRec.moved, hm, film, if_true])
    · rename_i film
      split
      · rename_i motor
        exact unorderedStop_writes.congr (by simp only [MotionRec.moved, hm, film, motor, if_true, if_false, Bool.false_eq_true])
      · rename_i motor
        split
        · rename_i slow
          exact Writes.congr (f := MotionRec.toRunup) rfl
            (by simp only [MotionRec.moved, hm, film, motor, slow, if_true, if_false, Bool.false_eq_true])
        · rename_i slow
          exact stays.congr (by simp only [MotionRec.moved, hm, film, motor, slow, if_false, id, Bool.false_eq_true])
  | stopping =>
    dsimp only
    unfold reportInStopping
    split
    · rename_i stops
      exact Writes.congr (f := MotionRec.toStopped) rfl (by simp only [MotionRec.moved, hm, stops, if_true])
    · rename_i stops
      split
      · rename_i restarts
        exact Writes.congr (f := MotionRec.toRunup) rfl
          (by simp only [MotionRec.moved, hm, stops, restarts, if_true, if_false, Bool.false_eq_true])
      · rename_i restarts
        exact stays.congr (by simp only [MotionRec.moved, hm, stops, restarts, if_false, id, Bool.false_eq_true])
  | broken =>
    dsimp only
    unfold reportInBroken
    split
    · rename_i mended
      exact Writes.congr (f := MotionRec.toStopped) (queueNotice_motions _)
        (by simp only [MotionRec.moved, hm, mended, if_true])
    · rename_i mended
      exact stays.congr (by simp only [MotionRec.moved, hm, mended, if_false, id, Bool.false_eq_true])

theorem countStall_writes : Writes p (MotionRec.stallCounted e.setup.params.motionWindow) r (countStall e p r) := by
  unfold countStall
  dsimp only
  split
  · rename_i breaks
    refine Writes.congr (Writes.trans (.mod p (fun m => { m with
      stall := (r.motions.get p).stall + 1
      stallFlag := m.stallFlag || decide (e.setup.params.motionWindow ≤ (r.motions.get p).stall + 1) }) r)
      enterBroken_writes) ?_
    unfold MotionRec.stallCounted
    dsimp only
    rw [if_pos breaks]
  · rename_i short
    refine Writes.congr (f := fun m => { m with
      stall := (r.motions.get p).stall + 1
      stallFlag := m.stallFlag || decide (e.setup.params.motionWindow ≤ (r.motions.get p).stall + 1) }) rfl ?_
    unfold MotionRec.stallCounted
    dsimp only
    rw [if_neg short]

theorem stallStep_writes (k : Count) :
    Writes p (MotionRec.stalled e.setup.params.motionWindow k) r (stallStep e p k r) := by
  unfold stallStep motionOf
  split
  · rename_i locked
    cases k with
    | advance d =>
      exact Writes.congr (f := fun m => { m with stall := 0, stallFlag := false }) rfl
        (by simp only [MotionRec.stalled, locked, if_true])
    | first | still | jump =>
      exact countStall_writes.congr (by simp only [MotionRec.stalled, locked, if_true])
  · rename_i other
    exact (Writes.of_same rfl).congr (by simp only [MotionRec.stalled, other, if_false, id])

/-- R25: the five steps on the record. -/
def MotionRec.reported (w : Nat) (now : Byte) (frames : BitVec 16) (k : Count) (m : MotionRec) : MotionRec :=
  { (((m.gapped.counted frames k).moved now k).stalled w k) with signals := now }

theorem handIfChanged_motions (before : MotionRec) : (handIfChanged e p before r).motions = r.motions := by
  unfold handIfChanged
  dsimp only
  split <;> rfl

theorem takeReport_writes (now : Byte) (frames : BitVec 16) :
    Writes p (MotionRec.reported e.setup.params.motionWindow now frames (countOf (r.motions.get p).lastCount frames)) r
      (takeReport e p now frames r) := by
  have steps := ((((gapStep_writes (e := e) (p := p) (r := r.hand (.lampReport p (sigLamp now) (sigDowser now)))).trans
    (countStep_writes (e := e) frames (countOf (r.motions.get p).lastCount frames))).trans (motionStep_writes (e := e) now
    (countOf (r.motions.get p).lastCount frames))).trans (stallStep_writes (e := e)
    (countOf (r.motions.get p).lastCount frames))).trans (.mod p (fun m => { m with signals := now }) _)
  unfold takeReport Writes
  dsimp only
  rw [Run.handAll_motions, handIfChanged_motions]
  exact steps

end

/-! ### The fields of that record -/

section
variable (m : MotionRec) (w : Nat) (now : Byte) (frames : BitVec 16) (k : Count)

/-- What the motion and the stall window leave of a record. -/
def SameCount (a b : MotionRec) : Prop :=
  b.lastCount = a.lastCount ∧ b.value = a.value ∧ b.miss = a.miss ∧ b.silent = a.silent ∧ b.resyncDue = a.resyncDue
    ∧ b.signals = a.signals ∧ (b.referenced = true → a.referenced = true)

theorem SameCount.refl : SameCount m m := ⟨rfl, rfl, rfl, rfl, rfl, rfl, id⟩

theorem moved_sameCount : SameCount m (m.moved now k) := by
  unfold MotionRec.moved
  split
  · split
    · unfold MotionRec.adopted
      split
      · split <;> exact ⟨rfl, rfl, rfl, rfl, rfl, rfl, id⟩
      · exact ⟨rfl, rfl, rfl, rfl, rfl, rfl, id⟩
    · exact .refl m
  · split
    · exact ⟨rfl, rfl, rfl, rfl, rfl, rfl, id⟩
    · exact .refl m
  · split
    · exact ⟨rfl, rfl, rfl, rfl, rfl, rfl, nofun⟩
    · split
      · exact ⟨rfl, rfl, rfl, rfl, rfl, rfl, id⟩
      · split
        · exact ⟨rfl, rfl, rfl, rfl, rfl, rfl, id⟩
        · exact .refl m
  · split
    · exact ⟨rfl, rfl, rfl, rfl, rfl, rfl, nofun⟩
    · split
      · exact ⟨rfl, rfl, rfl, rfl, rfl, rfl, id⟩
      · split
        · exact ⟨rfl, rfl, rfl, rfl, rfl, rfl, id⟩
        · exact .refl m
  · split
    · exact ⟨rfl, rfl, rfl, rfl, rfl, rfl, id⟩
    · split
      · exact ⟨rfl, rfl, rfl, rfl, rfl, rfl, id⟩
      · exact .refl m
  · split
    · exact ⟨rfl, rfl, rfl, rfl, rfl, rfl, id⟩
    · exact .refl m

theorem stalled_sameCount : SameCount m (m.stalled w k) := by
  unfold MotionRec.stalled
  split
  · cases k with
    | advance d => exact ⟨rfl, rfl, rfl, rfl, rfl, rfl, id⟩
    | first | still | jump =>
      unfold MotionRec.stallCounted
      dsimp only
      split
      · exact ⟨rfl, rfl, rfl, rfl, rfl, rfl, nofun⟩
      · exact ⟨rfl, rfl, rfl, rfl, rfl, rfl, id⟩
  · exact .refl m

/-- R41, R42: the gap step clears the miss count, SILENT and resync due, and touches no count. -/
theorem gapped_fields : m.gapped.miss = 0 ∧ m.gapped.silent = false ∧ m.gapped.resyncDue = false
    ∧ m.gapped.lastCount = m.lastCount ∧ m.gapped.value = m.value ∧ m.gapped.referenced = m.referenced
    ∧ m.gapped.motion = m.motion ∧ m.gapped.signals = m.signals ∧ m.gapped.runup = m.runup
    ∧ (m.gapped.stall = m.stall ∨ m.gapped.stall = 0) := by
  unfold MotionRec.gapped
  split
  · exact ⟨rfl, rfl, rfl, rfl, rfl, rfl, rfl, rfl, rfl, .inr rfl⟩
  · rename_i no_gap
    simp only [Bool.or_eq_true, not_or, Bool.not_eq_true] at no_gap
    exact ⟨rfl, no_gap.1, no_gap.2, rfl, rfl, rfl, rfl, rfl, rfl, .inl rfl⟩

/-- R26 to R28: the count step. -/
theorem counted_fields : (m.counted frames k).lastCount = some frames ∧ (m.counted frames k).miss = m.miss
    ∧ (m.counted frames k).silent = m.silent ∧ (m.counted frames k).resyncDue = m.resyncDue
    ∧ (m.counted frames k).motion = m.motion ∧ (m.counted frames k).signals = m.signals
    ∧ (m.counted frames k).stall = m.stall ∧ (m.counted frames k).runup = m.runup := by
  cases k <;> exact ⟨rfl, rfl, rfl, rfl, rfl, rfl, rfl, rfl⟩

end

/-- The counts of the record a report leaves: the motion and the stall window touch none of them. -/
theorem reported_fields (m : MotionRec) (w : Nat) (now : Byte) (frames : BitVec 16) (k : Count) :
    (m.reported w now frames k).lastCount = some frames ∧ (m.reported w now frames k).signals = now
      ∧ (m.reported w now frames k).miss = 0 ∧ (m.reported w now frames k).silent = false
      ∧ (m.reported w now frames k).resyncDue = false
      ∧ (m.reported w now frames k).value = (m.gapped.counted frames k).value
      ∧ ((m.reported w now frames k).referenced = true → (m.gapped.counted frames k).referenced = true) := by
  obtain ⟨miss, silent, resync, _⟩ := gapped_fields m
  obtain ⟨last, cmiss, csilent, cresync, _⟩ := counted_fields m.gapped frames k
  obtain ⟨mcount, mvalue, mmiss, msilent, mresync, _, mref⟩ := moved_sameCount (m.gapped.counted frames k) now k
  obtain ⟨scount, svalue, smiss, ssilent, sresync, _, sref⟩ := stalled_sameCount ((m.gapped.counted frames k).moved now k) w k
  exact ⟨scount.trans (mcount.trans last), rfl, smiss.trans (mmiss.trans (cmiss.trans miss)),
    ssilent.trans (msilent.trans (csilent.trans silent)), sresync.trans (mresync.trans (cresync.trans resync)),
    svalue.trans mvalue, fun h => mref (sref h)⟩

/-! ### A report delivered (R10) -/

theorem takeState_delivers {s : State} {st : Byte} {m : Payload} {x : Station} {p : Fin 8} (hst : stationOf st = some x)
    (hp : positionAt s.setup x = some p) (first : s.port.reportedPositions.get p = false) :
    takeState (Cell.make .state st m) s = deliverState p m s := by
  have reporting : reportingPosition s.setup st = some p := by
    unfold reportingPosition
    rw [hst]
    exact hp
  unfold takeState
  rw [make_station, make_payload, reporting]
  exact if_neg (by rw [first]; decide)

/-- The run-time state a delivered report leaves, before what it hands on is taken. -/
def reportTaken (p : Fin 8) (m : Payload) (s : State) : Run := takeReport s.env p m[0] (m[1] ++ m[2]) s.run

theorem deliverState_eq (p : Fin 8) (m : Payload) (s : State) : deliverState p m s = { s with
    port := { s.port with reportedPositions := s.port.reportedPositions.set p true }
    run := drain s.env (reportTaken p m s) } := by
  unfold deliverState State.act reportTaken read16
  rfl

theorem exec_returnState {s : State} (ha : s.acting) {st : Byte} {m : Payload} {x : Station} {p : Fin 8}
    (hst : stationOf st = some x) (hp : positionAt s.setup x = some p) (first : s.port.reportedPositions.get p = false) :
    exec (.returnState st m) s = .next (State.judged { s with
      port := { s.port with
        reportedPositions := s.port.reportedPositions.set p true, loopRet := some (Cell.make .state st m) }
      run := drain s.env (reportTaken p m s) }) := by
  have received := receive_acting ha .ret .state st m
  have passed : receive .ret (Cell.make .state st m) s = State.judged { (deliverState p m s) with
      port := (deliverState p m s).port.leaves .ret (some (Cell.make .state st m)) } := by
    rw [received, ← takeState_delivers hst hp first]
    rfl
  have carried : exec (.returnState st m) s = .next (receive .ret (Cell.make .state st m) s) := rfl
  rw [carried, passed, deliverState_eq]
  dsimp only [LoopPort.leaves]

/-- What is handed on waits for no motion block, so the records stay as the report left them. -/
theorem reportTaken_motions {s : State} (hq : s.quiet) (p : Fin 8) (m : Payload) (q : Fin 8) :
    (drain s.env (reportTaken p m s)).motions.get q = if p = q then
      (s.run.motions.get p).reported s.setup.params.motionWindow m[0] (m[1] ++ m[2])
        (countOf (s.run.motions.get p).lastCount (m[1] ++ m[2])) else s.run.motions.get q := by
  have no_motion : NoMotionDue (reportTaken p m s) := (takeReport_tracked p _ _ (.refl _)).quiet (noMotionDue_of_quiet hq)
  rw [(drain_acts_quietly (obs := true) no_motion).motions]
  exact (takeReport_writes m[0] (m[1] ++ m[2])).get q

theorem reportTaken_acts {s : State} (p : Fin 8) (m : Payload) :
    Acts s.env true true s.run (drain s.env (reportTaken p m s)) :=
  drain_acts rfl (takeReport_acts rfl p _ _ .refl)

/-- The frame count of a report, in the terms of the claims (R26 to R28). -/
theorem countOf_cases (last now : BitVec 16) :
    ((now - last).toNat = 0 → countOf (some last) now = .still)
      ∧ (1 ≤ (now - last).toNat → (now - last).toNat ≤ 2047 → countOf (some last) now = .advance (now - last).toNat)
      ∧ (2048 ≤ (now - last).toNat → countOf (some last) now = .jump) := by
  unfold countOf
  dsimp only
  have limit : Config.jumpDelta = 2048 := rfl
  refine ⟨fun h => if_pos h, fun low high => ?_, fun h => ?_⟩
  · rw [if_neg (by omega), if_pos (by omega)]
  · rw [if_neg (by omega), if_neg (by omega)]

end Sys2Proof.Machine

namespace Sys2Proof.Proofs

open Sys2Proof.Machine

/-- Settles O42: the motion step and the stall window keep what the gap and the count have left. -/
theorem reportCountsFrames : Obligations.ReportCountsFrames := by
  intro st m x p s ha hr hq hst hp first
  have record := reportTaken_motions hq p m
  have own := (record p).trans (if_pos rfl)
  have undisturbed := undisturbed_of_acts (reportTaken_acts (s := s) p m)
  obtain ⟨_, _, _, _, kept, ref, _⟩ := gapped_fields (s.run.motions.get p)
  obtain ⟨last, signals, miss, silent, resync, value, referenced⟩ := reported_fields (s.run.motions.get p)
    s.setup.params.motionWindow m[0] (m[1] ++ m[2]) (countOf (s.run.motions.get p).lastCount (m[1] ++ m[2]))
  rw [← own] at last signals miss silent resync value referenced
  refine ⟨_, exec_returnState ha hst hp first, rfl, rfl, last, signals, miss, silent, resync, fun hl => ?_,
    fun l hl => ⟨fun zero => ?_, fun low high => ?_, fun jump => ⟨?_, ?_⟩⟩, fun q other => (record q).trans (if_neg (Ne.symm other)),
    undisturbed.ladderKept⟩
  · rw [hl] at value
    exact value.trans kept
  · rw [hl, (countOf_cases l _).1 zero] at value
    exact value.trans kept
  · rw [hl, (countOf_cases l _).2.1 low high] at value
    exact value.trans (congrArg (fun v => advanceValue v _) kept)
  · rw [hl, (countOf_cases l _).2.2 jump] at value
    exact value.trans kept
  · rw [hl, (countOf_cases l _).2.2 jump] at referenced
    exact Bool.eq_false_iff.2 fun still => nomatch referenced still

end Sys2Proof.Proofs
end

section
/-! PROOFS. The motion state a report leaves, and the slots it raises (O43). -/

namespace Sys2Proof.Machine

/-! ### The motion of the record (R30 to R40) -/

section
variable {m : MotionRec} {w : Nat} {now : Byte} {k : Count}

/-- The motion is judged by the motion state and the last signals alone. -/
theorem moved_adopted (h : m.motion = .unreported) : m.moved now .first = m.adopted now := by
  unfold MotionRec.moved
  rw [h]
  exact if_pos rfl

theorem moved_stopped (h : m.motion = .stopped) : m.moved now k = if sigMotor now then m.toRunup else m := by
  unfold MotionRec.moved
  rw [h]

theorem moved_runup (h : m.motion = .runup) : m.moved now k =
    if lost sigFilm m.signals now then m.broke
    else if lost sigMotor m.signals now then m.toStopping
    else if sigSpeed now then m.toLocked else m := by
  unfold MotionRec.moved
  rw [h]

theorem moved_locked (h : m.motion = .locked) : m.moved now k =
    if lost sigFilm m.signals now then m.broke
    else if lost sigMotor m.signals now then m.toStopping
    else if !sigSpeed now && sigMotor now then m.toRunup else m := by
  unfold MotionRec.moved
  rw [h]

theorem moved_stopping (h : m.motion = .stopping) : m.moved now k =
    if !sigMotor now && k == .still then m.toStopped
    else if sigMotor now && !sigMotor m.signals then m.toRunup else m := by
  unfold MotionRec.moved
  rw [h]

theorem moved_broken (h : m.motion = .broken) :
    m.moved now k = if sigFilm now && !sigMotor now then m.toStopped else m := by
  unfold MotionRec.moved
  rw [h]

/-- A position in RUNUP or LOCKED that loses FILM. -/
theorem moved_breaks (h : m.motion = .runup ∨ m.motion = .locked) (film : lost sigFilm m.signals now = true) :
    m.moved now k = m.broke := by
  rcases h with h | h
  · rw [moved_runup h, if_pos film]
  · rw [moved_locked h, if_pos film]

/-- A position in RUNUP or LOCKED that loses MOTOR with FILM kept. -/
theorem moved_halts (h : m.motion = .runup ∨ m.motion = .locked) (film : lost sigFilm m.signals now = false)
    (motor : lost sigMotor m.signals now = true) : m.moved now k = m.toStopping := by
  have kept : ¬ lost sigFilm m.signals now = true := by simp [film]
  rcases h with h | h
  · rw [moved_runup h, if_neg kept, if_pos motor]
  · rw [moved_locked h, if_neg kept, if_pos motor]

/-- The stall window is of LOCKED alone. -/
theorem stalled_other (h : m.motion ≠ .locked) : m.stalled w k = m := if_neg h

/-- One report does not fill a stall window of 1 or more that stood empty. -/
theorem stalled_fresh (h : m.stall = 0) (hw : 1 ≤ w) : (m.stalled w k).motion = m.motion := by
  unfold MotionRec.stalled
  split
  · cases k with
    | advance d => rfl
    | first | still | jump =>
      unfold MotionRec.stallCounted
      dsimp only
      rw [if_neg (by omega)]
  · rfl

theorem stalled_advance (h : m.motion = .locked) (d : Nat) :
    m.stalled w (.advance d) = { m with stall := 0, stallFlag := false } := if_pos h

end

/-! ### The slots a report raises (R33, R34, R39) -/

section
variable {e : Env} {r r0 : Run} {p : Fin 8}

theorem queueNotice_slot_other (b : NoticeBody) {j : Fin 82} (h : j ≠ slotQueue) :
    (queueNotice e b r).slots.get j = r.slots.get j :=
  (queueNotice_slot b j).resolve_right fun raised => h raised.2

theorem gapStep_slot {j : Fin 82} (h : j ≠ slotQueue) : (gapStep e p r).slots.get j = r.slots.get j := by
  unfold gapStep
  dsimp only
  split
  · split
    · exact queueNotice_slot_other _ h
    · rfl
  · rfl

theorem unreference_slot (why : UnrefReason) {j : Fin 82} (h : j ≠ slotQueue) :
    (unreference e p why r).slots.get j = r.slots.get j := by
  unfold unreference loseReference
  dsimp only
  split
  · exact queueNotice_slot_other _ h
  · rfl

theorem countStep_slot (now : BitVec 16) (k : Count) {j : Fin 82} (h : j ≠ slotQueue) :
    (countStep e p now k r).slots.get j = r.slots.get j := by
  cases k with
  | first | still | advance d => rfl
  | jump => exact unreference_slot _ h

/-- R25: the steps of a report before its motion. -/
def reportCounted (e : Env) (p : Fin 8) (now : Byte) (frames : BitVec 16) (r : Run) : Run :=
  countStep e p frames (countOf (r.motions.get p).lastCount frames)
    (gapStep e p (r.hand (.lampReport p (sigLamp now) (sigDowser now))))

theorem reportCounted_slot (now : Byte) (frames : BitVec 16) {j : Fin 82} (h : j ≠ slotQueue) :
    (reportCounted e p now frames r).slots.get j = r.slots.get j :=
  (countStep_slot _ _ h).trans (gapStep_slot h)

theorem reportCounted_record (now : Byte) (frames : BitVec 16) :
    (reportCounted e p now frames r).motions.get p =
      (r.motions.get p).gapped.counted frames (countOf (r.motions.get p).lastCount frames) :=
  (((gapStep_writes (e := e) (p := p) (r := r.hand (.lampReport p (sigLamp now) (sigDowser now)))).trans
    (countStep_writes frames _)).get p).trans (if_pos rfl)

/-- What follows the motion step acts further on the state it leaves. -/
theorem takeReport_acts_after (now : Byte) (frames : BitVec 16)
    (h : Acts e true obs r0 (motionStep e p now (countOf (r.motions.get p).lastCount frames) (reportCounted e p now frames r))) :
    Acts e true obs r0 (takeReport e p now frames r) := by
  unfold reportCounted at h
  unfold takeReport
  dsimp only
  refine (handIfChanged_acts _ _ ?_).hand _ (fun _ _ => .inl rfl)
  exact (stallStep_acts rfl _ _ h).motion rfl _ _ (by intro _ sound; exact sound)

theorem enterBroken_raises :
    Acts e true obs (raisePosition e (slotBreak p) p (r.modMotion p MotionRec.toBroken)) (enterBroken e p r) := by
  unfold enterBroken
  exact (unreference_acts rfl _ _ (queueFor_acts _ _ (queueFor_acts _ _ .refl))).one _ (.inl rfl)

theorem unorderedStop_raises :
    Acts e true obs (raisePosition e (slotHalt p) p (r.modMotion p MotionRec.toStopping)) (unorderedStop e p r) :=
  Acts.one _ (.inl rfl) .refl

theorem motionStep_breaks {now : Byte} {k : Count} (h : (r.motions.get p).motion = .runup ∨ (r.motions.get p).motion = .locked)
    (film : lost sigFilm (r.motions.get p).signals now = true) : motionStep e p now k r = enterBroken e p r := by
  unfold motionStep motionOf reportInRunup reportInLocked
  rcases h with h | h <;> rw [h] <;> exact if_pos film

theorem motionStep_halts {now : Byte} {k : Count} (h : (r.motions.get p).motion = .runup ∨ (r.motions.get p).motion = .locked)
    (film : lost sigFilm (r.motions.get p).signals now = false)
    (motor : lost sigMotor (r.motions.get p).signals now = true) : motionStep e p now k r = unorderedStop e p r := by
  have kept : ¬ lost sigFilm (r.motions.get p).signals now = true := by simp [film]
  unfold motionStep motionOf reportInRunup reportInLocked
  rcases h with h | h <;> rw [h] <;> exact (if_neg kept).trans (if_pos motor)

end

/-- A raise of a position slot, and then more of the report and what follows it. -/
theorem reportTaken_raises {s : State} {p : Fin 8} {m : Payload} {k : Fin 82} (g : MotionRec → MotionRec) {v : Int}
    (hk : k ≠ slotQueue)
    (value : (g ((s.run.motions.get p).gapped.counted (m[1] ++ m[2]) (countOf (s.run.motions.get p).lastCount (m[1] ++ m[2])))).value = v)
    (after : Acts s.env true true
      (raisePosition s.env k p ((reportCounted s.env p m[0] (m[1] ++ m[2]) s.run).modMotion p g))
      (motionStep s.env p m[0] (countOf (s.run.motions.get p).lastCount (m[1] ++ m[2]))
        (reportCounted s.env p m[0] (m[1] ++ m[2]) s.run)))
    {t : State} (ht : t.run = drain s.env (reportTaken p m s)) : RaisedIn s t k (some v) := by
  have record := reportCounted_record (e := s.env) (p := p) (r := s.run) m[0] (m[1] ++ m[2])
  have raised : raisePosition s.env k p ((reportCounted s.env p m[0] (m[1] ++ m[2]) s.run).modMotion p g) =
      Machine.raise s.env k (some v) none ((reportCounted s.env p m[0] (m[1] ++ m[2]) s.run).modMotion p g) := by
    unfold raisePosition
    rw [Run.modMotion_get, if_pos rfl, record, value]
  refine raisedIn_of (full := true) (obs := true) (x := none)
    (r1 := (reportCounted s.env p m[0] (m[1] ++ m[2]) s.run).modMotion p g) (reportCounted_slot _ _ hk) ?_
  rw [ht, ← raised]
  exact drain_acts rfl (takeReport_acts_after _ _ after)

theorem slotBreak_ne_queue (p : Fin 8) : slotBreak p ≠ slotQueue := by
  revert p
  decide

theorem slotHalt_ne_queue (p : Fin 8) : slotHalt p ≠ slotQueue := by
  revert p
  decide

/-! ### The motion state a report leaves -/

section
variable {m : MotionRec} {w : Nat} {now : Byte} {frames : BitVec 16}

/-- The record before the motion step has the motion and the last signals of the record reported. -/
theorem counted_motion (k : Count) : (m.gapped.counted frames k).motion = m.motion
    ∧ (m.gapped.counted frames k).signals = m.signals := by
  obtain ⟨_, _, _, _, _, _, gmotion, gsignals, _⟩ := gapped_fields m
  obtain ⟨_, _, _, _, kmotion, ksignals, _⟩ := counted_fields m.gapped frames k
  exact ⟨kmotion.trans gmotion, ksignals.trans gsignals⟩

theorem counted_stall (k : Count) (h : m.stall = 0) : (m.gapped.counted frames k).stall = 0 := by
  obtain ⟨_, _, _, _, _, _, _, _, _, gstall⟩ := gapped_fields m
  obtain ⟨_, _, _, _, _, _, kstall, _⟩ := counted_fields m.gapped frames k
  rw [kstall]
  rcases gstall with g | g
  · exact g.trans h
  · exact g

/-- A motion step that leaves the position out of LOCKED leaves the record of the report. -/
theorem reported_of_moved {k : Count} {x : MotionRec} (h : (m.gapped.counted frames k).moved now k = x)
    (out : x.motion ≠ .locked) : m.reported w now frames k = { x with signals := now } := by
  unfold MotionRec.reported
  rw [h, stalled_other out]

/-- A motion step that enters LOCKED, or stays out of it, with an empty stall window. -/
theorem reported_motion_of_fresh {k : Count} {x : MotionRec} (h : (m.gapped.counted frames k).moved now k = x)
    (empty : x.stall = 0) (hw : 1 ≤ w) : (m.reported w now frames k).motion = x.motion := by
  unfold MotionRec.reported
  rw [h]
  exact stalled_fresh empty hw

theorem adopted_stall : (m.adopted now).stall = m.stall := by
  unfold MotionRec.adopted
  split
  · split <;> rfl
  · rfl

theorem reported_adopts (h : m.motion = .unreported) (empty : m.stall = 0) (hw : 1 ≤ w) :
    (m.reported w now frames .first).motion =
      if sigMotor now then (if sigSpeed now then .locked else .runup) else .stopped := by
  have adopted := moved_adopted (now := now) ((counted_motion (frames := frames) .first).1.trans h)
  have stall := counted_stall (frames := frames) .first empty
  rw [reported_motion_of_fresh adopted (adopted_stall.trans stall) hw]
  unfold MotionRec.adopted
  split
  · split <;> rfl
  · rfl

theorem reported_stopped (k : Count) (h : m.motion = .stopped) :
    (m.reported w now frames k).motion = if sigMotor now then .runup else .stopped := by
  have here := (counted_motion (frames := frames) k).1.trans h
  have moved := moved_stopped (now := now) (k := k) here
  by_cases motor : sigMotor now = true
  · rw [if_pos motor] at moved
    rw [reported_of_moved moved nofun, if_pos motor]
    rfl
  · rw [if_neg motor] at moved
    rw [reported_of_moved moved (by rw [here]; exact nofun), if_neg motor]
    exact here

theorem reported_breaks (k : Count) (h : m.motion = .runup ∨ m.motion = .locked) (film : lost sigFilm m.signals now = true) :
    m.reported w now frames k = { (m.gapped.counted frames k).broke with signals := now } := by
  obtain ⟨motion, signals⟩ := counted_motion (m := m) (frames := frames) k
  exact reported_of_moved (moved_breaks (by rwa [motion]) (by rwa [signals])) nofun

theorem reported_halts (k : Count) (h : m.motion = .runup ∨ m.motion = .locked) (film : lost sigFilm m.signals now = false)
    (motor : lost sigMotor m.signals now = true) :
    m.reported w now frames k = { (m.gapped.counted frames k).toStopping with signals := now } := by
  obtain ⟨motion, signals⟩ := counted_motion (m := m) (frames := frames) k
  exact reported_of_moved (moved_halts (by rwa [motion]) (by rwa [signals]) (by rwa [signals])) nofun

theorem reported_runup (k : Count) (h : m.motion = .runup) (film : lost sigFilm m.signals now = false)
    (motor : lost sigMotor m.signals now = false) (hw : 1 ≤ w) :
    (m.reported w now frames k).motion = if sigSpeed now then .locked else .runup := by
  obtain ⟨motion, signals⟩ := counted_motion (m := m) (frames := frames) k
  have moved := moved_runup (now := now) (k := k) (motion.trans h)
  rw [signals, film, motor, if_neg (by decide), if_neg (by decide)] at moved
  by_cases speed : sigSpeed now = true
  · rw [if_pos speed] at moved
    rw [reported_motion_of_fresh moved rfl hw, if_pos speed]
    rfl
  · rw [if_neg speed] at moved
    rw [reported_of_moved moved (by rw [motion, h]; exact nofun), if_neg speed]
    exact motion.trans h

theorem reported_locked (k : Count) (h : m.motion = .locked) (film : lost sigFilm m.signals now = false)
    (motor : lost sigMotor m.signals now = false) : (m.gapped.counted frames k).moved now k =
      if !sigSpeed now && sigMotor now then (m.gapped.counted frames k).toRunup else m.gapped.counted frames k := by
  obtain ⟨motion, signals⟩ := counted_motion (m := m) (frames := frames) k
  rw [moved_locked (motion.trans h), signals, film, motor, if_neg (by decide), if_neg (by decide)]

theorem reported_slows (k : Count) (h : m.motion = .locked) (film : lost sigFilm m.signals now = false)
    (motor : lost sigMotor m.signals now = false) (on : sigMotor now = true) (slow : sigSpeed now = false) :
    m.reported w now frames k = { (m.gapped.counted frames k).toRunup with signals := now } := by
  refine reported_of_moved ((reported_locked k h film motor).trans (if_pos ?_)) nofun
  rw [on, slow]
  rfl

theorem reported_advances (d : Nat) (h : m.motion = .locked) (film : lost sigFilm m.signals now = false)
    (motor : lost sigMotor m.signals now = false) (speed : sigSpeed now = true) :
    m.reported w now frames (.advance d) =
      { m.gapped.counted frames (.advance d) with signals := now, stall := 0, stallFlag := false } := by
  have moved := reported_locked (frames := frames) (.advance d) h film motor
  rw [if_neg (by simp [speed])] at moved
  unfold MotionRec.reported
  rw [moved, stalled_advance ((counted_motion (frames := frames) _).1.trans h)]

theorem reported_stops (h : m.motion = .stopping) (off : sigMotor now = false) :
    m.reported w now frames .still = { (m.gapped.counted frames .still).toStopped with signals := now } := by
  refine reported_of_moved ((moved_stopping ((counted_motion (frames := frames) _).1.trans h)).trans (if_pos ?_)) nofun
  rw [off]
  rfl

theorem reported_restarts (k : Count) (h : m.motion = .stopping) (on : sigMotor now = true) (was : sigMotor m.signals = false) :
    m.reported w now frames k = { (m.gapped.counted frames k).toRunup with signals := now } := by
  obtain ⟨motion, signals⟩ := counted_motion (m := m) (frames := frames) k
  refine reported_of_moved ((moved_stopping (motion.trans h)).trans ((if_neg ?_).trans (if_pos ?_))) nofun
  · simp [on]
  · simp [on, signals, was]

theorem reported_broken (k : Count) (h : m.motion = .broken) :
    (m.reported w now frames k).motion = if sigFilm now && !sigMotor now then .stopped else .broken := by
  have here := (counted_motion (frames := frames) k).1.trans h
  have moved := moved_broken (now := now) (k := k) here
  by_cases mended : (sigFilm now && !sigMotor now) = true
  · rw [if_pos mended] at moved
    rw [reported_of_moved moved nofun, if_pos mended]
    rfl
  · rw [if_neg mended] at moved
    rw [reported_of_moved moved (by rw [here]; exact nofun), if_neg mended]
    exact here

end

end Sys2Proof.Machine

namespace Sys2Proof.Proofs

open Sys2Proof.Machine

/-- Settles O43: each conjunct is one branch of the motion step, and the stall window after it. -/
theorem reportMovesMachine : Obligations.ReportMovesMachine := by
  intro st m x p s ha hr hq settings hst hp first
  have window : 1 ≤ s.setup.params.motionWindow := by
    obtain ⟨⟨_, _, _, _, _, _, ⟨low, _⟩, _⟩, _⟩ := settings
    omega
  have own := (reportTaken_motions hq p m p).trans (if_pos rfl)
  have record := reportCounted_record (e := s.env) (p := p) (r := s.run) m[0] (m[1] ++ m[2])
  obtain ⟨motion, signals⟩ := counted_motion (m := s.run.motions.get p) (frames := m[1] ++ m[2])
    (countOf (s.run.motions.get p).lastCount (m[1] ++ m[2]))
  obtain ⟨t, reported, run⟩ : ∃ t, exec (.returnState st m) s = .next t ∧ t.run = drain s.env (reportTaken p m s) :=
    ⟨_, exec_returnState ha hst hp first, by rw [judged_run]⟩
  refine ⟨t, reported, ?_⟩
  rw [run, own]
  refine ⟨?_, reported_stopped _, ?_, ?_, ?_, ?_, ?_, ?_, ?_, reported_broken _⟩
  · intro moved none empty
    rw [none]
    exact reported_adopts moved empty window
  · intro moved film
    rw [reported_breaks _ moved film]
    refine ⟨rfl, rfl, rfl, reportTaken_raises MotionRec.toBroken (slotBreak_ne_queue p) rfl ?_ run⟩
    rw [motionStep_breaks (by rwa [record, motion]) (by rwa [record, signals])]
    exact enterBroken_raises
  · intro moved film motor
    rw [reported_halts _ moved film motor]
    refine ⟨rfl, rfl, rfl, reportTaken_raises MotionRec.toStopping (slotHalt_ne_queue p) rfl ?_ run⟩
    rw [motionStep_halts (by rwa [record, motion]) (by rwa [record, signals]) (by rwa [record, signals])]
    exact unorderedStop_raises
  · exact fun moved film motor => reported_runup _ moved film motor window
  · intro moved film motor on slow
    rw [reported_slows _ moved film motor on slow]
    exact ⟨rfl, rfl⟩
  · intro l moved film motor speed last low high
    rw [last, (countOf_cases l _).2.1 low high, reported_advances _ moved film motor speed]
    exact ⟨(counted_motion _).1.trans moved, rfl, rfl⟩
  · intro moved off last
    rw [last, (countOf_cases _ _).1 (by simp), reported_stops moved off]
    exact ⟨rfl, rfl⟩
  · intro moved on was
    rw [reported_restarts _ moved on was]
    exact ⟨rfl, rfl, rfl⟩

end Sys2Proof.Proofs
end

section
/-! PROOFS. The gate, the strike expiry, the motion timers and the stall count, each as its own row (O50, O51, O56, O57). -/

namespace Sys2Proof.Machine

/-! ### Events (log 4) -/

section
variable {s : State} {count : Env → Run → Run} {due : Env → Run → Bool} {f : Env → Run → Run}

/-- What the part does at an event touches the run-time state and the contact alone. -/
theorem onlyBlocksActed_judged (s : State) (r : Run) : OnlyBlocksActed s (State.judged { s with run := r }) :=
  ⟨rfl, rfl, rfl, rfl⟩

/-- An event that hands nothing on leaves what its action leaves. -/
theorem event_quiet (ha : s.acting) (hd : due s.env (count s.env s.run) = true) {r : Run}
    (acted : f s.env (count s.env s.run) = r) (quiet : r.handoffs = []) :
    s.event count due f = State.judged { s with run := r } := by
  rw [event_due ha hd, acted, drain_quiet quiet]

/-- An event that hands nothing on and raises nothing. -/
theorem event_silent (ha : s.acting) (hr : s.contactRight) (hd : due s.env (count s.env s.run) = true) {r : Run}
    (acted : f s.env (count s.env s.run) = r) (quiet : r.handoffs = []) (slots : r.slots = s.run.slots) :
    s.event count due f = { s with run := r } := by
  rw [event_quiet ha hd acted quiet, judged_same_slots hr slots]

end

section
variable {e : Env} {r : Run}

theorem raisePosition_frame (k : Fin 82) (p : Fin 8) :
    raisePosition e k p r = { r with slots := (raisePosition e k p r).slots } := raise_frame ..

theorem raise_slot_other {k j : Fin 82} (v : Option Int) (x : Option (Fin 16 × Severity)) (h : j ≠ k) :
    (raise e k v x r).slots.get j = r.slots.get j :=
  (raise_slot k j v x).trans (if_neg fun same => h same.1.symm)

theorem queueFor_defined {p : Fin 8} {d : PosDef} (h : e.setup.positions.get p = some d) (o : Order) :
    queueFor e p o r = { r with orders := enqueueOrder d.station o r.orders } := by
  unfold queueFor
  rw [h]
  rfl

theorem gapIsDue_reached {n : Nat} (gap : r.gate = .gap n) (due : e.setup.params.staggerGap ≤ n + 1) :
    gapIsDue e (countGap r) = true := by
  unfold gapIsDue countGap
  rw [gap]
  exact decide_eq_true due

theorem expireGap_due (h : gapIsDue e r = true) : expireGap e r = freeGate e r := if_pos h

theorem countGap_gap {n : Nat} (gap : r.gate = .gap n) : countGap r = r.setGate (.gap (n + 1)) := by
  unfold countGap
  rw [gap]

/-! ### One slot raised -/

/-- A command whose one raise is of slot k. -/
theorem raised_alone {s t : State} {k : Fin 82} {v : Option Int} {x : Option (Fin 16 × Severity)} {r0 : Run}
    (before : r0.slots = s.run.slots) (slots : t.run.slots = (raise s.env k v x r0).slots) :
    RaisedIn s t k v ∧ ∀ j, j ≠ k → t.run.slots.get j = s.run.slots.get j := by
  constructor
  · have raised : RaisedIn s { s with run := raise s.env k v x r0 } k v :=
      raisedIn_of (full := true) (obs := true) (r1 := r0) (by rw [before]) .refl
    unfold RaisedIn at raised ⊢
    rw [slots]
    exact raised
  · intro j other
    rw [slots, raise_slot_other v x other, before]

/-- An event that hands nothing on and raises one slot. -/
theorem event_raises {s : State} {count : Env → Run → Run} {due : Env → Run → Bool} {f : Env → Run → Run} {k : Fin 82}
    {v : Option Int} {x : Option (Fin 16 × Severity)} {r0 r : Run} (ha : s.acting)
    (hd : due s.env (count s.env s.run) = true) (acted : f s.env (count s.env s.run) = r) (quiet : r.handoffs = [])
    (before : r0.slots = s.run.slots) (slots : r.slots = (raise s.env k v x r0).slots) :
    ∃ t, s.event count due f = t ∧ OnlyBlocksActed s t ∧ t.run = r ∧ RaisedIn s t k v
      ∧ ∀ j, j ≠ k → t.run.slots.get j = s.run.slots.get j :=
  ⟨_, event_quiet ha hd acted quiet, onlyBlocksActed_judged s r, judged_run _, raised_alone before slots⟩

/-- A record with nothing published reads the same with nothing published. -/
theorem unpublished_eq {l : LampRec} (primes : l.primed = false) (readies : l.ready = false) :
    ({ l with primed := false, ready := false } : LampRec) = l := by
  cases l
  cases primes
  cases readies
  rfl

/-! ### The grant (R54) -/

/-- R54: the entry that stands where every entry before it gives way is the next strike. -/
theorem nextStrike_at {x : StrikeEntry} {before after : List StrikeEntry} (queue : r.strikeQueue = before ++ x :: after)
    (free : (r.lamps.get x.position).downPending = false)
    (older : ∀ y ∈ before, (r.lamps.get y.position).downPending = true ∨ x.cls = .urgent ∧ y.cls = .ordinary)
    (younger : x.cls = .ordinary → ∀ y ∈ after, (r.lamps.get y.position).downPending = true ∨ y.cls = .ordinary) :
    nextStrike r = some x := by
  have eligible_x : eligible r x = true := by
    unfold eligible
    rw [free]
    rfl
  have give_way : ∀ y ∈ before, (eligible r y && y.cls == .urgent) = false := by
    intro y hy
    unfold eligible
    rcases older y hy with pending | ⟨_, ordinary⟩
    · rw [pending]; rfl
    · rw [ordinary]; exact Bool.and_false _
  unfold nextStrike
  rw [queue]
  cases hx : x.cls with
  | urgent =>
    have first : (before ++ x :: after).find? (fun y => eligible r y && y.cls == .urgent) = some x :=
      List.find?_eq_some_iff_append.2 ⟨by rw [eligible_x, hx]; rfl, before, after, rfl, fun y hy => by rw [give_way y hy]; rfl⟩
    rw [first]
  | ordinary =>
    have none_urgent : (before ++ x :: after).find? (fun y => eligible r y && y.cls == .urgent) = none := by
      refine List.find?_eq_none.2 fun y hy => Bool.not_eq_true _ ▸ ?_
      rcases List.mem_append.1 hy with hy | hy
      · exact give_way y hy
      · rcases List.mem_cons.1 hy with rfl | hy
        · rw [hx]; exact Bool.and_false _
        · unfold eligible
          rcases younger hx y hy with pending | ordinary
          · rw [pending]; rfl
          · rw [ordinary]; exact Bool.and_false _
    have first : (before ++ x :: after).find? (eligible r) = some x := by
      refine List.find?_eq_some_iff_append.2 ⟨eligible_x, before, after, rfl, fun y hy => ?_⟩
      rcases older y hy with pending | ⟨urgent, _⟩
      · unfold eligible; rw [pending]; rfl
      · rw [hx] at urgent; exact nomatch urgent
    rw [none_urgent, first]

/-- R54: the whole of a grant, where no change of PRIMED or READY is published. -/
theorem grantTo_quietly {p : Fin 8} {d : PosDef} (defined : e.setup.positions.get p = some d)
    (h : partnerOf e.setup p = none ∨ (r.lamps.get p).primed = false ∧ (r.lamps.get p).ready = false) :
    grantTo e p r = { r with
      gate := .striking p
      strikeQueue := r.strikeQueue.filter (fun x => x.position != p)
      lamps := r.lamps.set p { r.lamps.get p with
        lamp := .striking, strikeTimer := some 0, primed := false, ready := false }
      orders := enqueueOrder d.station .lampUp r.orders } := by
  have granted : queueFor e p .lampUp
      (((r.leaveStrike p).modLamp p (fun l => { l with lamp := .striking, strikeTimer := some 0 })).setGate (.striking p))
      = Run.modLamp p (fun l => { l with lamp := .striking, strikeTimer := some 0 })
          ({ r with
            gate := .striking p, strikeQueue := r.strikeQueue.filter (fun x => x.position != p)
            orders := enqueueOrder d.station .lampUp r.orders }) := queueFor_defined defined _
  unfold grantTo
  rw [granted, workConditions_unlit, Run.modLamp_modLamp]
  · rfl
  · rw [Run.modLamp_get, if_pos rfl]
    exact nofun
  · rw [Run.modLamp_get, if_pos rfl]
    exact h

theorem offerGrant_next {x : StrikeEntry} (free : r.gate = .free) (next : nextStrike r = some x) :
    offerGrant e r = grantTo e x.position r := by
  unfold offerGrant
  rw [free, next]

theorem grantIsDue_next {x : StrikeEntry} (free : r.gate = .free) (next : nextStrike r = some x) : grantIsDue r = true := by
  unfold grantIsDue
  rw [free, next]
  rfl

/-! ### The strike expiry (R55) -/

theorem countStrike_striking {l : LampRec} {n : Nat} (h : l.lamp = .striking) (timer : l.strikeTimer = some n) :
    l.countStrike = { l with strikeTimer := some (n + 1) } := by
  unfold LampRec.countStrike
  rw [if_pos h, timer]
  rfl

theorem strikeIsDue_reached {p : Fin 8} {n : Nat} (h : (r.lamps.get p).lamp = .striking)
    (timer : (r.lamps.get p).strikeTimer = some n) (limit : e.setup.params.strikeLimit ≤ n) : strikeIsDue e p r = true := by
  unfold strikeIsDue reached
  dsimp only
  rw [h, timer]
  exact decide_eq_true limit

theorem lampUp_code (o : Order) : (o.code == Order.lampUp.code) = (o == .lampUp) := by
  cases o <;> rfl

theorem withdrawOrder_lampUp (st : Station) : withdrawOrder st Order.lampUp.code r =
    { r with orders := r.orders.filter (fun y => !(y.station == st && y.order == .lampUp)) } := by
  unfold withdrawOrder
  simp only [lampUp_code]

/-- R55: what a strike expiry does before it turns to the lamp orders. -/
def strikeEnded (e : Env) (p : Fin 8) (r : Run) : Run :=
  { r with
    slots := (raisePosition e (slotStrike p) p r).slots
    gate := if e.setup.params.staggerGap = 0 then .free else .gap 0
    lamps := r.lamps.set p { r.lamps.get p with lamp := .dark, strikeTimer := none } }

theorem strikeEnded_lamp (p : Fin 8) :
    (strikeEnded e p r).lamps.get p = { r.lamps.get p with lamp := .dark, strikeTimer := none } :=
  (get_set_fin ..).trans (if_pos rfl)

theorem endStrikeOf_ended {p : Fin 8} (gate : r.gate = .striking p)
    (nothing : 0 < e.setup.params.staggerGap ∨ r.strikeQueue = []) :
    endStrikeOf e p ((raisePosition e (slotStrike p) p r).modLamp p (fun l => { l with lamp := .dark, strikeTimer := none }))
      = strikeEnded e p r := by
  rw [raisePosition_frame]
  unfold endStrikeOf
  refine (if_pos gate).trans ((enterGap_nothing (nothing.imp id fun empty x hx => ?_)).trans rfl)
  rw [show _ = ([] : List StrikeEntry) from empty] at hx
  cases hx

/-- R60: conditions that are false of an unlit lamp stay as they are. -/
theorem workConditions_same {p : Fin 8} (unlit : (r.lamps.get p).lamp ≠ .lit) (primes : (r.lamps.get p).primed = false)
    (readies : (r.lamps.get p).ready = false) : workConditions e p r = r := by
  rw [workConditions_unlit unlit (.inr ⟨primes, readies⟩)]
  exact Run.modLamp_self (unpublished_eq primes readies)

theorem expireStrike_eq {p : Fin 8} (due : strikeIsDue e p r = true) (gate : r.gate = .striking p)
    (nothing : 0 < e.setup.params.staggerGap ∨ r.strikeQueue = []) {d : PosDef} (defined : e.setup.positions.get p = some d) :
    expireStrike e p r = workConditions e p (if isOnAir e.setup r p
      then withdrawOrder d.station Order.lampUp.code (strikeEnded e p r) else lampDownRequest e p (strikeEnded e p r)) := by
  unfold expireStrike
  dsimp only
  rw [if_pos due, endStrikeOf_ended gate nothing, defined]

theorem expireStrike_onAir {p : Fin 8} (due : strikeIsDue e p r = true) (gate : r.gate = .striking p)
    (nothing : 0 < e.setup.params.staggerGap ∨ r.strikeQueue = []) {d : PosDef} (defined : e.setup.positions.get p = some d)
    (primes : (r.lamps.get p).primed = false) (readies : (r.lamps.get p).ready = false) (onAir : isOnAir e.setup r p = true) :
    expireStrike e p r = { strikeEnded e p r with
      orders := r.orders.filter (fun y => !(y.station == d.station && y.order == .lampUp)) } := by
  have dark := strikeEnded_lamp (e := e) (r := r) p
  rw [expireStrike_eq due gate nothing defined, if_pos onAir, withdrawOrder_lampUp, workConditions_same]
  · rfl
  · exact fun lit => nomatch (congrArg LampRec.lamp dark).symm.trans lit
  · exact (congrArg LampRec.primed dark).trans primes
  · exact (congrArg LampRec.ready dark).trans readies

theorem expireStrike_offAir {p : Fin 8} (due : strikeIsDue e p r = true) (gate : r.gate = .striking p)
    (nothing : 0 < e.setup.params.staggerGap ∨ r.strikeQueue = []) {d : PosDef} (defined : e.setup.positions.get p = some d)
    (primes : (r.lamps.get p).primed = false) (readies : (r.lamps.get p).ready = false) (offAir : isOnAir e.setup r p = false) :
    expireStrike e p r = { strikeEnded e p r with
      lamps := r.lamps.set p { r.lamps.get p with lamp := .dark, strikeTimer := none, downPending := true }
      orders := enqueueOrder d.station .lampDown r.orders } := by
  have dark := strikeEnded_lamp (e := e) (r := r) p
  have down : lampDownTaken e p (strikeEnded e p r) = (strikeEnded e p r).modLamp p
      (fun _ => { r.lamps.get p with lamp := .dark, strikeTimer := none, downPending := true }) := by
    have plain := lampDownTaken_plain (e := e) (p := p) (r := strikeEnded e p r)
      (takenDown_dark (.inl (congrArg LampRec.lamp dark)))
      (fun h => nomatch (congrArg LampRec.lamp dark).symm.trans h) (fun h => nomatch (congrArg LampRec.lamp dark).symm.trans h)
      (.inr ⟨(congrArg LampRec.primed dark).trans primes, (congrArg LampRec.ready dark).trans readies⟩)
    rw [dark] at plain
    exact plain.trans (Run.modLamp_congr (unpublished_eq (l := { r.lamps.get p with
      lamp := .dark, strikeTimer := none, downPending := true }) primes readies))
  have requested : lampDownRequest e p (strikeEnded e p r) = { strikeEnded e p r with
      lamps := r.lamps.set p { r.lamps.get p with lamp := .dark, strikeTimer := none, downPending := true }
      orders := enqueueOrder d.station .lampDown r.orders } := by
    unfold lampDownRequest
    rw [queueFor_defined defined, down]
    unfold Run.modLamp strikeEnded
    dsimp only
    rw [Vector.set_set]
  rw [expireStrike_eq due gate nothing defined, offAir, if_neg nofun, requested, workConditions_same]
  all_goals rw [get_set_fin, if_pos rfl]
  · exact nofun
  · exact primes
  · exact readies

end

end Sys2Proof.Machine

namespace Sys2Proof.Proofs

open Sys2Proof.Machine

/-- Settles O57: the gap's end frees the gate, and a grant publishes nothing of a lamp unpublished before. -/
theorem gateFreedAndGranted : Obligations.GateFreedAndGranted := by
  intro n p d before after cls s ha hr hq
  refine ⟨fun gap due none_eligible => ?_, fun free queue pending older younger defined unpublished => ?_⟩
  · have freed : expireGap s.env (countGap s.run) = s.run.setGate .free := by
      rw [expireGap_due (gapIsDue_reached gap due), countGap_gap gap]
      exact offerGrant_nothing (r := s.run.setGate .free) none_eligible
    exact congrArg Host.Outcome.next (event_silent ha hr (gapIsDue_reached gap due) freed hq rfl)
  · have next := nextStrike_at (x := { position := p, cls := cls }) queue pending older younger
    have unlit : p ∈ s.run.strikeQueue.map StrikeEntry.position := by simp [queue]
    have granted := (offerGrant_next (e := s.env) free next).trans (grantTo_quietly defined (unpublished.imp_right fun h =>
      h.elim (fun sound => sound.unpublished (by rw [(sound.2 p).1.1 unlit]; exact nofun)) id))
    exact congrArg Host.Outcome.next (event_silent (count := fun _ r => r) (due := fun _ r => grantIsDue r) ha hr
      (grantIsDue_next free next) granted hq rfl)

/-- Settles O56: the strike's end frees or gaps the gate, and the lamp's order follows the on-air position. -/
theorem strikeExpiryDarkens : Obligations.StrikeExpiryDarkens := by
  intro p n d s ha hq sound
  dsimp only
  intro striking timer limit defined nothing
  have record : (s.run.modLamp p LampRec.countStrike).lamps.get p = { s.run.lamps.get p with strikeTimer := some (n + 1) } := by
    rw [Run.modLamp_get, if_pos rfl, countStrike_striking striking timer]
  have due : strikeIsDue s.env p (s.run.modLamp p LampRec.countStrike) = true :=
    strikeIsDue_reached (n := n + 1) ((congrArg LampRec.lamp record).trans striking) (congrArg LampRec.strikeTimer record) limit
  have gate : (s.run.modLamp p LampRec.countStrike).gate = .striking p := (sound.2 p).2.1.2 striking
  obtain ⟨primes, readies⟩ := sound.unpublished (p := p) (by rw [striking]; exact nofun)
  have primes' := (congrArg LampRec.primed record).trans primes
  have readies' := (congrArg LampRec.ready record).trans readies
  have written : ∀ y : LampRec, (s.run.modLamp p LampRec.countStrike).lamps.set p y = s.run.lamps.set p y :=
    fun y => Vector.set_set ..
  constructor
  · intro offAir
    have acted := expireStrike_offAir due gate nothing defined primes' readies' offAir
    rw [record, written] at acted
    obtain ⟨t, expired, only, run, raised⟩ := event_raises (count := fun _ r => r.modLamp p LampRec.countStrike)
      (due := fun e r => strikeIsDue e p r) (f := fun e r => expireStrike e p r) (k := slotStrike p)
      (v := some (s.run.motions.get p).value) (x := none) ha due acted hq (r0 := s.run.modLamp p LampRec.countStrike) rfl rfl
    exact ⟨t, congrArg Host.Outcome.next expired, only, by rw [run]; rfl, raised⟩
  · intro onAir
    have acted := expireStrike_onAir due gate nothing defined primes' readies' onAir
    obtain ⟨t, expired, only, run, raised⟩ := event_raises (count := fun _ r => r.modLamp p LampRec.countStrike)
      (due := fun e r => strikeIsDue e p r) (f := fun e r => expireStrike e p r) (k := slotStrike p)
      (v := some (s.run.motions.get p).value) (x := none) ha due acted hq (r0 := s.run.modLamp p LampRec.countStrike) rfl rfl
    refine ⟨t, congrArg Host.Outcome.next expired, only, ?_, raised⟩
    rw [run]
    unfold strikeEnded
    rw [record, written]
    rfl

end Sys2Proof.Proofs
end

section
/-! PROOFS. The timers and the stall count of the Motion Tracker, each as its own row (O50, O51). -/

namespace Sys2Proof.Machine

/-- An event whose hand-offs wait for no motion block: what follows keeps the motion records. -/
theorem event_drains {s : State} {count : Env → Run → Run} {due : Env → Run → Bool} {f : Env → Run → Run} {r : Run}
    (ha : s.acting) (hd : due s.env (count s.env s.run) = true) (acted : f s.env (count s.env s.run) = r)
    (no_motion : NoMotionDue r) :
    ∃ t, s.event count due f = t ∧ OnlyBlocksActed s t ∧ t.run = drain s.env r ∧ t.run.motions = r.motions := by
  have run : (State.judged { s with run := drain s.env r }).run = drain s.env r := by rw [judged_run]
  exact ⟨_, by rw [event_due ha hd, acted], onlyBlocksActed_judged s _, run,
    by rw [run, (drain_acts_quietly (obs := true) no_motion).motions]⟩

/-- A slot is raised, and the blocks then act and take what is handed on. -/
theorem raisedIn_of_drain {s t : State} {k : Fin 82} {v : Option Int} {x : Option (Fin 16 × Severity)} {r0 r : Run}
    (before : r0.slots.get k = s.run.slots.get k) (acts : Acts s.env true true (raise s.env k v x r0) r)
    (run : t.run = drain s.env r) : RaisedIn s t k v :=
  raisedIn_of (full := true) (obs := true) before (run ▸ drain_acts rfl acts)

theorem ladderKept_of_event {i : Instr} {s t : State} (hi : namesEvent i = true) (h : exec i s = .next t) : LadderKept s t :=
  (exec_event_undisturbed hi h).ladderKept

section
variable {e : Env} {r : Run} {p : Fin 8}

/-! ### Counts (R35, R36, R41) -/

theorem modMotion_twice (p : Fin 8) (f g : MotionRec → MotionRec) (r : Run) :
    (r.modMotion p f).modMotion p g = r.modMotion p (fun m => g (f m)) := by
  unfold Run.modMotion
  dsimp only
  rw [get_set_fin, if_pos rfl, Vector.set_set]

theorem modMotion_congr {f g : MotionRec → MotionRec} (h : f (r.motions.get p) = g (r.motions.get p)) :
    r.modMotion p f = r.modMotion p g := by
  unfold Run.modMotion
  rw [h]

theorem countMiss_first (h : (r.motions.get p).miss = 1) :
    r.modMotion p MotionRec.countMiss = r.modMotion p (fun m => { m with miss := 2 }) := by
  refine modMotion_congr ?_
  unfold MotionRec.countMiss
  rw [h]
  rfl

theorem countRunup_running {n : Nat} (h : (r.motions.get p).motion = .runup) (timer : (r.motions.get p).runup = some n) :
    r.modMotion p MotionRec.countRunup = r.modMotion p (fun m => { m with runup := some (n + 1) }) := by
  refine modMotion_congr ?_
  unfold MotionRec.countRunup
  rw [if_pos h, timer]
  rfl

theorem countStop_running {n : Nat} (h : (r.motions.get p).motion = .stopping) (timer : (r.motions.get p).stop = .running n) :
    r.modMotion p MotionRec.countStop = r.modMotion p (fun m => { m with stop := .running (n + 1) }) := by
  refine modMotion_congr ?_
  unfold MotionRec.countStop
  rw [if_pos h, timer]
  rfl

theorem silentIsDue_second (defined : (e.setup.positions.get p).isSome = true) (miss : (r.motions.get p).miss = 2)
    (shown : (r.motions.get p).silent = false) : silentIsDue e p r = true := by
  unfold silentIsDue definedPos
  dsimp only
  rw [defined, miss, shown]
  rfl

theorem runupIsDue_reached {n : Nat} (h : (r.motions.get p).motion = .runup) (timer : (r.motions.get p).runup = some n)
    (limit : e.setup.params.runupLimit ≤ n) : runupIsDue e p r = true := by
  unfold runupIsDue reached
  dsimp only
  rw [h, timer]
  exact decide_eq_true limit

theorem stopIsDue_reached {n : Nat} (h : (r.motions.get p).motion = .stopping) (timer : (r.motions.get p).stop = .running n)
    (limit : e.setup.params.stopLimit ≤ n) : stopIsDue e p r = true := by
  unfold stopIsDue
  dsimp only
  rw [h, timer]
  exact decide_eq_true limit

theorem becomeSilent_due (h : silentIsDue e p r = true) : becomeSilent e p r = handChange e p false
    ((raisePosition e (slotSilent p) p (r.modMotion p (fun m => { m with silent := true }))).hand (.chainFault p)) := if_pos h

theorem expireRunup_due (h : runupIsDue e p r = true) : expireRunup e p r = handChange e p true
    (((queueFor e p .stop (raisePosition e (slotHalt p) p r)).modMotion p MotionRec.toStopping).hand (.chainFault p)) := if_pos h

theorem expireStop_due (h : stopIsDue e p r = true) : expireStop e p r =
    raisePosition e (slotStop p) p (r.modMotion p (fun m => { m with stop := .expired })) := if_pos h

theorem stallFlagDue_reached (h : (r.motions.get p).motion = .locked)
    (reached : e.setup.params.motionWindow ≤ (r.motions.get p).stall + 1)
    (short : (r.motions.get p).stall + 1 < 2 * e.setup.params.motionWindow) : stallFlagDue e p r = true := by
  unfold stallFlagDue motionOf nextStall
  rw [h, decide_eq_true reached, decide_eq_true short]
  rfl

theorem stallBreakDue_reached (h : (r.motions.get p).motion = .locked)
    (reached : 2 * e.setup.params.motionWindow ≤ (r.motions.get p).stall + 1) : stallBreakDue e p r = true := by
  unfold stallBreakDue motionOf nextStall
  rw [h, decide_eq_true reached]
  rfl

/-! ### The stall count (R38) -/

theorem countStall_flags (reached : e.setup.params.motionWindow ≤ (r.motions.get p).stall + 1)
    (short : (r.motions.get p).stall + 1 < 2 * e.setup.params.motionWindow) : countStall e p r =
      r.modMotion p (fun m => { m with stall := m.stall + 1, stallFlag := true }) := by
  unfold countStall
  dsimp only
  rw [if_neg (by omega)]
  refine modMotion_congr ?_
  rw [decide_eq_true reached, Bool.or_true]

/-- R38: the stall count that breaks a position. -/
def stallMarked (e : Env) (p : Fin 8) (r : Run) : Run :=
  r.modMotion p (fun m => { m with
    stall := (r.motions.get p).stall + 1
    stallFlag := m.stallFlag || decide (e.setup.params.motionWindow ≤ (r.motions.get p).stall + 1) })

theorem countStall_breaks (reached : 2 * e.setup.params.motionWindow ≤ (r.motions.get p).stall + 1) :
    countStall e p r = enterBroken e p (stallMarked e p r) := by
  unfold countStall
  exact if_pos reached

theorem stalledOut_noMotionDue (h : NoMotionDue r) : NoMotionDue (stalledOut e p r) :=
  (handIfChanged_tracked p _ (countStall_tracked p (.refl r))).quiet h

theorem stalledOut_motions (reached : 2 * e.setup.params.motionWindow ≤ (r.motions.get p).stall + 1) :
    (stalledOut e p r).motions = r.motions.set p { r.motions.get p with
      motion := .broken, runup := none, stall := 0, stallFlag := false, referenced := false } := by
  have broke : MotionRec.stallCounted e.setup.params.motionWindow (r.motions.get p) = { r.motions.get p with
      motion := .broken, runup := none, stall := 0, stallFlag := false, referenced := false } := if_pos reached
  unfold stalledOut
  rw [handIfChanged_motions, countStall_writes, broke]

theorem handIfChanged_notices (b : MotionRec) : (handIfChanged e p b r).notices = r.notices := by
  unfold handIfChanged
  dsimp only
  split <;> rfl

theorem handIfChanged_orders (b : MotionRec) : (handIfChanged e p b r).orders = r.orders := by
  unfold handIfChanged
  dsimp only
  split <;> rfl

theorem queueNotice_room (b : NoticeBody) (room : r.notices.length < 16) :
    (queueNotice e b r).notices = r.notices ++ [{ sweep := e.sweep, body := b }] := by
  have queued : queueNotice e b r = { r with notices := r.notices ++ [{ sweep := e.sweep, body := b }] } := if_pos room
  rw [queued]

theorem queueFor_notices (o : Order) : (queueFor e p o r).notices = r.notices := by
  unfold queueFor
  split <;> rfl

theorem unreference_unreferenced {why : UnrefReason} (h : (r.motions.get p).referenced = false) :
    unreference e p why r = r := by
  unfold unreference
  dsimp only
  rw [if_neg (by rw [h]; exact nofun)]

theorem unreference_referenced {why : UnrefReason} (h : (r.motions.get p).referenced = true) :
    unreference e p why r = queueNotice e (.unref p why (r.motions.get p).value) (loseReference p r) := if_pos h

theorem loseReference_notices : (loseReference p r).notices = r.notices := by
  unfold loseReference
  split <;> rfl

theorem unreference_orders (why : UnrefReason) : (unreference e p why r).orders = r.orders := by
  cases h : (r.motions.get p).referenced with
  | false => rw [unreference_unreferenced h]
  | true =>
    rw [unreference_referenced h, queueNotice_orders]
    unfold loseReference
    split <;> rfl

/-- R39: BREAK raised, and STOP and then DOWSER CLOSE queued, before the reference is lost. -/
def breakOrdered (e : Env) (p : Fin 8) (r : Run) : Run :=
  queueFor e p .dowserClose (queueFor e p .stop (raisePosition e (slotBreak p) p (r.modMotion p MotionRec.toBroken)))

theorem enterBroken_eq : enterBroken e p r = (unreference e p .brk (breakOrdered e p r)).hand (.chainFault p) := rfl

theorem breakOrdered_record : (breakOrdered e p r).motions.get p = (r.motions.get p).toBroken := by
  unfold breakOrdered
  rw [queueFor_motions, queueFor_motions, raisePosition_motions, Run.modMotion_get, if_pos rfl]

theorem breakOrdered_notices : (breakOrdered e p r).notices = r.notices := by
  unfold breakOrdered
  rw [queueFor_notices, queueFor_notices, raisePosition_frame]
  rfl

theorem breakOrdered_orders {d : PosDef} (defined : e.setup.positions.get p = some d) : (breakOrdered e p r).orders =
    enqueueOrder d.station .dowserClose (enqueueOrder d.station .stop r.orders) := by
  unfold breakOrdered
  rw [queueFor_defined defined, queueFor_defined defined, raisePosition_frame]
  rfl

theorem enterBroken_orders {d : PosDef} (defined : e.setup.positions.get p = some d) : (enterBroken e p r).orders =
    enqueueOrder d.station .dowserClose (enqueueOrder d.station .stop r.orders) :=
  (unreference_orders .brk).trans (breakOrdered_orders defined)

theorem enterBroken_notices_kept (h : (r.motions.get p).referenced = false) : (enterBroken e p r).notices = r.notices := by
  rw [enterBroken_eq, unreference_unreferenced (by rw [breakOrdered_record]; exact h)]
  exact breakOrdered_notices

theorem enterBroken_notices_room (h : (r.motions.get p).referenced = true) (room : r.notices.length < 16) :
    (enterBroken e p r).notices = r.notices
      ++ [{ sweep := e.sweep, body := .unref p .brk (r.motions.get p).value }] := by
  have queued : (loseReference p (breakOrdered e p r)).notices = r.notices :=
    loseReference_notices.trans breakOrdered_notices
  rw [enterBroken_eq, unreference_referenced (by rw [breakOrdered_record]; exact h)]
  refine (queueNotice_room _ (by rw [queued]; exact room)).trans ?_
  rw [queued, breakOrdered_record]
  rfl

end

end Sys2Proof.Machine

namespace Sys2Proof.Proofs

open Sys2Proof.Machine

/-- Settles O50: each row counts once and expires; what SILENT and the runup's end hand on waits for no motion block. -/
theorem motionTimersExpire : Obligations.MotionTimersExpire := by
  intro p n s ha hq
  have none_due : ∀ f, NoMotionDue (s.run.modMotion p f) := fun f => noMotionDue_of_quiet hq
  refine ⟨fun defined miss shown => ?_, fun runup timer limit => ?_, fun stopping timer limit => ?_⟩
  · have counted := countMiss_first miss
    have due : silentIsDue s.env p (s.run.modMotion p MotionRec.countMiss) = true := by
      rw [counted]
      exact silentIsDue_second defined (by rw [Run.modMotion_get, if_pos rfl]) (by rw [Run.modMotion_get, if_pos rfl]; exact shown)
    have acted := becomeSilent_due due
    have quiet : NoMotionDue (handChange s.env p false ((raisePosition s.env (slotSilent p) p
        ((s.run.modMotion p MotionRec.countMiss).modMotion p (fun m => { m with silent := true }))).hand (.chainFault p))) :=
      (handChange_tracked p false ((((Tracked.refl _).motion p _).raise _ _ _).hand (x := .chainFault p) nofun)).quiet (none_due _)
    obtain ⟨t, fell, only, run, motions⟩ := event_drains (count := fun _ r => r.modMotion p MotionRec.countMiss)
      (due := fun e r => silentIsDue e p r) (f := fun e r => becomeSilent e p r) ha due acted quiet
    refine ⟨t, congrArg Host.Outcome.next fell, only,
      ladderKept_of_event (i := .missCountSilent p) rfl (congrArg Host.Outcome.next fell), motions.trans ?_, ?_⟩
    · rw [handChange_motions, Run.hand_motions, raisePosition_motions, counted, modMotion_twice]
      rfl
    · refine raisedIn_of_drain (x := none)
        (r0 := (s.run.modMotion p MotionRec.countMiss).modMotion p (fun m => { m with silent := true })) rfl ?_ run
      have value : some (((s.run.modMotion p MotionRec.countMiss).modMotion p (fun m => { m with silent := true })).motions.get p).value
          = some (s.run.motions.get p).value := by
        rw [counted, Run.modMotion_get, if_pos rfl, Run.modMotion_get, if_pos rfl]
      rw [← value]
      exact handChange_acts p false (Acts.one _ (.inl rfl) .refl)
  · have counted := countRunup_running runup timer
    have due : runupIsDue s.env p (s.run.modMotion p MotionRec.countRunup) = true := by
      rw [counted]
      exact runupIsDue_reached (n := n + 1) (by rw [Run.modMotion_get, if_pos rfl]; exact runup)
        (by rw [Run.modMotion_get, if_pos rfl]) limit
    have acted := expireRunup_due due
    have quiet : NoMotionDue (handChange s.env p true (((queueFor s.env p .stop
        (raisePosition s.env (slotHalt p) p (s.run.modMotion p MotionRec.countRunup))).modMotion p MotionRec.toStopping).hand
        (.chainFault p))) :=
      (handChange_tracked p true (((((Tracked.refl _).raise _ _ _).order p _).motion p _).hand (x := .chainFault p) nofun)).quiet (none_due _)
    obtain ⟨t, fell, only, run, motions⟩ := event_drains (count := fun _ r => r.modMotion p MotionRec.countRunup)
      (due := fun e r => runupIsDue e p r) (f := fun e r => expireRunup e p r) ha due acted quiet
    refine ⟨t, _, congrArg Host.Outcome.next fell, only,
      ladderKept_of_event (i := .runupExpiry p) rfl (congrArg Host.Outcome.next fell), motions.trans ?_, ?_, run,
      fun d defined => ?_⟩
    · rw [handChange_motions, Run.hand_motions]
      show (queueFor s.env p .stop (raisePosition s.env (slotHalt p) p (s.run.modMotion p MotionRec.countRunup))).motions.set p
        (MotionRec.toStopping ((queueFor s.env p .stop (raisePosition s.env (slotHalt p) p
          (s.run.modMotion p MotionRec.countRunup))).motions.get p)) = _
      rw [queueFor_motions, raisePosition_motions, counted, Run.modMotion_get, if_pos rfl]
      exact Vector.set_set ..
    · refine raisedIn_of_drain (x := none) (r0 := s.run.modMotion p MotionRec.countRunup) rfl ?_ run
      have value : some ((s.run.modMotion p MotionRec.countRunup).motions.get p).value = some (s.run.motions.get p).value := by
        rw [counted, Run.modMotion_get, if_pos rfl]
      rw [← value]
      exact handChange_acts p true (((queueFor_acts p .stop .refl).motion rfl p MotionRec.toStopping fun _ sound => sound).one _ (.inl rfl))
    · show (queueFor s.env p .stop (raisePosition s.env (slotHalt p) p (s.run.modMotion p MotionRec.countRunup))).orders = _
      rw [queueFor_defined defined, raisePosition_frame]
      rfl
  · have counted := countStop_running stopping timer
    have due : stopIsDue s.env p (s.run.modMotion p MotionRec.countStop) = true := by
      rw [counted]
      exact stopIsDue_reached (n := n + 1) (by rw [Run.modMotion_get, if_pos rfl]; exact stopping)
        (by rw [Run.modMotion_get, if_pos rfl]) limit
    have acted : expireStop s.env p (s.run.modMotion p MotionRec.countStop)
        = raisePosition s.env (slotStop p) p (s.run.modMotion p (fun m => { m with stop := .expired })) :=
      (expireStop_due due).trans (by rw [counted, modMotion_twice])
    have value : some ((s.run.modMotion p (fun m => { m with stop := .expired })).motions.get p).value
        = some (s.run.motions.get p).value := by
      rw [Run.modMotion_get, if_pos rfl]
    have frame := raisePosition_frame (e := s.env) (r := s.run.modMotion p (fun m => { m with stop := .expired })) (slotStop p) p
    obtain ⟨t, expired, only, run, raised⟩ := event_raises (count := fun _ r => r.modMotion p MotionRec.countStop)
      (due := fun e r => stopIsDue e p r) (f := fun e r => expireStop e p r) (k := slotStop p) (x := none) ha due
      acted (by rw [frame]; exact hq) (r0 := s.run.modMotion p (fun m => { m with stop := .expired })) rfl rfl
    rw [value] at raised
    exact ⟨t, congrArg Host.Outcome.next expired, only, by rw [run, frame]; rfl, raised⟩

/-- Settles O51: the stall count flags, and at twice the window breaks as entry to BROKEN does. -/
theorem stallFlagsThenBreaks : Obligations.StallFlagsThenBreaks := by
  intro p s ha hr hq locked
  refine ⟨fun reached short => ?_, fun reached => ?_⟩
  · exact congrArg Host.Outcome.next (event_silent (count := fun _ r => r) (due := fun e r => stallFlagDue e p r) ha hr
      (stallFlagDue_reached locked reached short) (countStall_flags reached short) hq rfl)
  · obtain ⟨t, broke, only, run, motions⟩ := event_drains (count := fun _ r => r) (due := fun e r => stallBreakDue e p r)
      (f := fun e r => stalledOut e p r) ha (stallBreakDue_reached locked reached) rfl
      (stalledOut_noMotionDue (noMotionDue_of_quiet hq))
    have stalled : (countStall s.env p s.run) = enterBroken s.env p (stallMarked s.env p s.run) := countStall_breaks reached
    have referenced : ((stallMarked s.env p s.run).motions.get p).referenced = (s.run.motions.get p).referenced := by
      unfold stallMarked
      rw [Run.modMotion_get, if_pos rfl]
    have value : ((stallMarked s.env p s.run).motions.get p).value = (s.run.motions.get p).value := by
      unfold stallMarked
      rw [Run.modMotion_get, if_pos rfl]
    have notices : (stalledOut s.env p s.run).notices = (enterBroken s.env p (stallMarked s.env p s.run)).notices := by
      unfold stalledOut
      rw [handIfChanged_notices, stalled]
    refine ⟨t, _, congrArg Host.Outcome.next broke, only,
      ladderKept_of_event (i := .stallBreak p) rfl (congrArg Host.Outcome.next broke),
      motions.trans (stalledOut_motions reached), ?_, fun was room => ?_, run, fun was => ?_, fun d defined => ?_⟩
    · refine raisedIn_of_drain (x := none) (r0 := (stallMarked s.env p s.run).modMotion p MotionRec.toBroken) rfl ?_ run
      have raised : raisePosition s.env (slotBreak p) p ((stallMarked s.env p s.run).modMotion p MotionRec.toBroken)
          = raise s.env (slotBreak p) (some (s.run.motions.get p).value) none
            ((stallMarked s.env p s.run).modMotion p MotionRec.toBroken) := by
        unfold raisePosition
        rw [Run.modMotion_get, if_pos rfl, ← value]
        rfl
      rw [← raised]
      refine handIfChanged_acts _ _ ?_
      rw [stalled]
      exact enterBroken_raises
    · have queued := enterBroken_notices_room (e := s.env) (r := stallMarked s.env p s.run) (referenced.trans was) room
      obtain ⟨rest, more⟩ := (drain_acts (e := s.env) (full := true) (obs := true) rfl
        (Acts.refl (r0 := stalledOut s.env p s.run))).notices_prefix
      rw [notices, queued, value] at more
      exact ⟨rest, by rw [run, ← more]; rfl⟩
    · exact notices.trans (enterBroken_notices_kept (referenced.trans was))
    · unfold stalledOut
      rw [handIfChanged_orders, stalled]
      exact enterBroken_orders defined

end Sys2Proof.Proofs
end

section
/-! PROOFS. The walk of the Cue Scanner over one record, and the mark that brings it there (O52). -/

namespace Sys2Proof.Machine

section
variable {e : Env} {r : Run} {p : Fin 8}

/-! ### What the scanner reads -/

theorem cursorRecord_congr {su : Setup} {a b : Run} (h : (a.scans.get p).cursor = (b.scans.get p).cursor) :
    cursorRecord su a p = cursorRecord su b p := by
  unfold cursorRecord
  rw [h]

theorem scanned_congr {su : Setup} {a b : Run} (motions : a.motions = b.motions) (handoffs : a.handoffs = b.handoffs)
    (q : Fin 8) : scanned su a q = scanned su b q := by
  unfold scanned
  rw [motions, handoffs]

theorem cursorRecord_end {su : Setup} (h : (r.scans.get p).cursor = listLength su p) : cursorRecord su r p = none := by
  unfold cursorRecord
  rw [h]
  exact List.getElem?_eq_none (Nat.le_refl _)

theorem modScan_twice (f g : ScanRec → ScanRec) : (r.modScan p f).modScan p g = r.modScan p (fun x => g (f x)) := by
  unfold Run.modScan
  dsimp only
  rw [get_set_fin, if_pos rfl, Vector.set_set]

theorem modScan_congr {f g : ScanRec → ScanRec} (h : f (r.scans.get p) = g (r.scans.get p)) :
    r.modScan p f = r.modScan p g := by
  unfold Run.modScan
  rw [h]

theorem modScan_self {f : ScanRec → ScanRec} (h : f (r.scans.get p) = r.scans.get p) : r.modScan p f = r := by
  unfold Run.modScan
  rw [h, set_get_self]

/-! ### The walk over one record (R83) -/

theorem takeRecord_end {ev : CueEvent} (h : cursorRecord e.setup r p = none) : takeRecord e ev p r = (r, false) := by
  unfold takeRecord
  rw [h]

theorem takeRecord_completes {ev : CueEvent} {b : Cue} {how : CueOutcome} {r1 : Run}
    (record : cursorRecord e.setup r p = some (some b)) (taken : takeCue e ev p b r = (r1, some how)) :
    takeRecord e ev p r = (complete e p b how r1, true) := by
  unfold takeRecord
  rw [record]
  dsimp only
  rw [taken]

theorem takeRecord_stays {ev : CueEvent} {b : Cue} {r1 : Run}
    (record : cursorRecord e.setup r p = some (some b)) (taken : takeCue e ev p b r = (r1, none)) :
    takeRecord e ev p r = (r1, false) := by
  unfold takeRecord
  rw [record]
  dsimp only
  rw [taken]

theorem walk_stops {ev : CueEvent} {n : Nat} {r1 : Run} (h : takeRecord e ev p r = (r1, false)) :
    walk e ev p (n + 1) r = r1 := by
  unfold walk
  rw [h]

theorem walk_goes {ev : CueEvent} {n : Nat} {r1 : Run} (h : takeRecord e ev p r = (r1, true)) :
    walk e ev p (n + 1) r = walk e ev p n r1 := by
  conv => lhs; unfold walk
  rw [h]

theorem evaluate_scanned {ev : CueEvent} (scans : scanned e.setup r p = true) (reaches : reachesReel e ev p r = true) :
    evaluate e ev p r = walk e ev p 33 r := by
  unfold evaluate
  rw [scans, reaches]
  rfl

theorem evaluate_unscanned {ev : CueEvent} (scans : scanned e.setup r p = false) : evaluate e ev p r = r := by
  unfold evaluate
  rw [scans]
  rfl

/-- R83: a walk that leaves the record at the cursor where it stands. -/
theorem evaluate_stays {ev : CueEvent} {b : Cue} {r1 : Run} (scans : scanned e.setup r p = true)
    (reaches : reachesReel e ev p r = true) (record : cursorRecord e.setup r p = some (some b))
    (taken : takeCue e ev p b r = (r1, none)) : evaluate e ev p r = r1 := by
  rw [evaluate_scanned scans reaches]
  exact walk_stops (takeRecord_stays record taken)

theorem complete_scan (b : Cue) (how : CueOutcome) :
    (complete e p b how r).scans.get p = (r.scans.get p).advanced := by
  unfold complete
  rw [Run.modScan_get, if_pos rfl, queueNotice_scans]

/-- R83: a walk that completes the record at the cursor, the last of its list. -/
theorem evaluate_completes {ev : CueEvent} {b : Cue} {how : CueOutcome} {r1 : Run} (scans : scanned e.setup r p = true)
    (reaches : reachesReel e ev p r = true) (record : cursorRecord e.setup r p = some (some b))
    (taken : takeCue e ev p b r = (r1, some how)) (last : (r1.scans.get p).cursor + 1 = listLength e.setup p) :
    evaluate e ev p r = complete e p b how r1 := by
  rw [evaluate_scanned scans reaches, walk_goes (takeRecord_completes record taken)]
  refine walk_stops (takeRecord_end (cursorRecord_end ?_))
  rw [complete_scan]
  exact last

/-- R97: the notice, where it has room, and the cursor moved on. -/
theorem complete_room (b : Cue) (how : CueOutcome) (room : r.notices.length < 16) : complete e p b how r = { r with
    scans := r.scans.set p (r.scans.get p).passed
    notices := r.notices ++
      [{ sweep := e.sweep
         body := .cue p b.tag b.action how ((r.scans.get p).met == some true) (r.motions.get p).value }] } := by
  have queued : ∀ body, queueNotice e body r = { r with notices := r.notices ++ [{ sweep := e.sweep, body := body }] } :=
    fun body => if_pos room
  unfold complete
  dsimp only
  rw [queued]
  rfl

/-! ### Marks (R98, R99) -/

/-- The run after a mark that counts. -/
def marked (p : Fin 8) (r : Run) : Run :=
  r.modScan p (fun x => { x with dotRun := x.dotRun + 1, marks := x.marks + 1 })

end

/-- R98, R99: the report that MarkComes speaks of, brought to a MARK record. -/
theorem takeCueReport_marks {s : State} {p : Fin 8} {b : Cue} {ordinal : Nat} {backstop : Option Int} (comes : MarkComes s p b)
    (trigger : b.trigger = .mark ordinal backstop) (marks : (s.run.scans.get p).marks < 4) :
    markDue s.env p s.run = true ∧ takeCueReport s.env p true false s.run = evaluate s.env .change p (marked p s.run) := by
  obtain ⟨scans, record, armed, _, _, started, length, short, gap⟩ := comes
  have defined : definedPos s.env.setup p = true := by
    unfold scanned at scans
    simp only [Bool.and_eq_true] at scans
    exact scans.1.1
  have dotted : (s.run.scans.get p).takeDot true = { s.run.scans.get p with dotRun := (s.run.scans.get p).dotRun + 1 } := by
    unfold ScanRec.takeDot
    rw [if_pos rfl]
    dsimp only
    rw [if_neg (by omega), Nat.min_eq_right (by omega)]
  have recognised : (s.run.scans.get p).recognises s.env.setup.params.markLength s.env.setup.params.markGap
      ((s.run.scans.get p).takeDot true) = true := by
    rw [dotted]
    unfold ScanRec.recognises
    simp only [Bool.and_eq_true, decide_eq_true_eq]
    exact ⟨⟨by rw [show s.env.setup.params.markLength = _ from length.symm]; omega, length⟩, gap⟩
  have counts : markCounts s.env (s.run.modScan p (ScanRec.takeDot true)) p = true := by
    have same : cursorRecord s.env.setup (s.run.modScan p (ScanRec.takeDot true)) p = some (some b) := by
      refine (cursorRecord_congr ?_).trans record
      rw [Run.modScan_get, if_pos rfl, dotted]
    unfold markCounts
    rw [same, show scanned s.env.setup (s.run.modScan p (ScanRec.takeDot true)) p = true from scans]
    dsimp only
    rw [trigger]
    exact decide_eq_true armed
  have marked_eq : countMark s.env p (s.run.modScan p (ScanRec.takeDot true)) = marked p s.run := by
    unfold countMark
    rw [counts, if_pos rfl, modScan_twice]
    refine modScan_congr ?_
    rw [dotted]
    dsimp only
    rw [Nat.min_eq_right (by omega)]
  refine ⟨by unfold markDue; rw [defined]; exact recognised, ?_⟩
  unfold takeCueReport
  dsimp only
  rw [Run.modScan_get, if_pos rfl, recognised, defined, if_pos rfl, Bool.and_true, if_pos rfl, Bool.false_or, if_pos rfl, marked_eq]

theorem exec_mark {s : State} {p : Fin 8} {b : Cue} {ordinal : Nat} {backstop : Option Int} (ha : s.acting)
    (comes : MarkComes s p b) (trigger : b.trigger = .mark ordinal backstop) (marks : (s.run.scans.get p).marks < 4) :
    exec (.markRecognised p) s
      = .next (State.judged { s with run := drain s.env (evaluate s.env .change p (marked p s.run)) }) := by
  obtain ⟨due, acted⟩ := takeCueReport_marks comes trigger marks
  rw [← acted]
  exact congrArg Host.Outcome.next
    (event_due (count := fun _ r => r) (due := fun e r => markDue e p r) (f := fun e r => takeCueReport e p true false r) ha due)

/-- A mark after which nothing is handed on and nothing is raised. -/
theorem exec_mark_silent {s : State} {p : Fin 8} {b : Cue} {ordinal : Nat} {backstop : Option Int} (ha : s.acting)
    (hr : s.contactRight) (comes : MarkComes s p b) (trigger : b.trigger = .mark ordinal backstop)
    (marks : (s.run.scans.get p).marks < 4) {r : Run} (walked : evaluate s.env .change p (marked p s.run) = r)
    (quiet : r.handoffs = []) (slots : r.slots = s.run.slots) :
    exec (.markRecognised p) s = .next { s with run := r } := by
  rw [exec_mark ha comes trigger marks, walked, drain_quiet quiet, judged_same_slots hr slots]

theorem marked_scan (p : Fin 8) (r : Run) : (marked p r).scans.get p =
    { r.scans.get p with dotRun := (r.scans.get p).dotRun + 1, marks := (r.scans.get p).marks + 1 } := by
  unfold marked
  rw [Run.modScan_get, if_pos rfl]

theorem marked_scanned {s : State} {p : Fin 8} {b : Cue} (comes : MarkComes s p b) :
    scanned s.env.setup (marked p s.run) p = true ∧ cursorRecord s.env.setup (marked p s.run) p = some (some b) := by
  obtain ⟨scans, record, _⟩ := comes
  exact ⟨scans, (cursorRecord_congr (by rw [marked_scan])).trans record⟩

/-- R84: a record neither held nor met whose trigger is not met. -/
theorem takeCue_unmet {e : Env} {ev : CueEvent} {p : Fin 8} {b : Cue} {r : Run} (unheld : (r.scans.get p).hold = .none)
    (unmet : (r.scans.get p).met = none) (waits : triggerMet b (r.motions.get p).value (r.scans.get p).marks = none) :
    takeCue e ev p b r = (r, none) := by
  unfold takeCue
  dsimp only
  rw [unheld, unmet]
  dsimp only
  rw [waits]

theorem takeCue_met {e : Env} {ev : CueEvent} {p : Fin 8} {b : Cue} {r : Run} {how : Bool} (unheld : (r.scans.get p).hold = .none)
    (unmet : (r.scans.get p).met = none) (met : triggerMet b (r.motions.get p).value (r.scans.get p).marks = some how) :
    takeCue e ev p b r = takeAction e p b.action (noteMet e p how r) := by
  unfold takeCue
  dsimp only
  rw [unheld, unmet]
  dsimp only
  rw [met]

/-- The run in which the record that a mark has brought to its ordinal acts. -/
def fired (p : Fin 8) (r : Run) : Run :=
  r.modScan p (fun x => { x with dotRun := x.dotRun + 1, marks := x.marks + 1, met := some false })

theorem fired_scan (p : Fin 8) (r : Run) : (fired p r).scans.get p = { r.scans.get p with
    dotRun := (r.scans.get p).dotRun + 1, marks := (r.scans.get p).marks + 1, met := some false } := by
  unfold fired
  rw [Run.modScan_get, if_pos rfl]

theorem takeCue_fired {s : State} {p : Fin 8} {b : Cue} {backstop : Option Int} (comes : MarkComes s p b)
    (trigger : b.trigger = .mark ((s.run.scans.get p).marks + 1) backstop) :
    takeCue s.env .change p b (marked p s.run) = takeAction s.env p b.action (fired p s.run) := by
  obtain ⟨_, _, _, unheld, unmet, _⟩ := comes
  have met : triggerMet b ((marked p s.run).motions.get p).value ((marked p s.run).scans.get p).marks = some false := by
    unfold triggerMet
    rw [trigger, marked_scan]
    exact if_pos (Nat.le_refl _)
  rw [takeCue_met (by rw [marked_scan]; exact unheld) (by rw [marked_scan]; exact unmet) met]
  refine congrArg (takeAction s.env p b.action) ?_
  exact modScan_twice (fun x => { x with dotRun := x.dotRun + 1, marks := x.marks + 1 }) (fun x => { x with met := some false })

/-- Everything a completed record leaves, for an action that touches neither the scanning records nor the notices. -/
theorem evaluate_fired {s : State} {p : Fin 8} {b : Cue} {how : CueOutcome} {r : Run} (fires : MarkFires s p b)
    (acted : takeAction s.env p b.action (fired p s.run) = ({ r with scans := (fired p s.run).scans }, some how))
    (motions : r.motions = s.run.motions) (notices : r.notices = s.run.notices) :
    evaluate s.env .change p (marked p s.run) = { r with
      scans := s.run.scans.set p { (s.run.scans.get p).passed with dotRun := (s.run.scans.get p).dotRun + 1 }
      notices := s.run.notices ++ [{ sweep := s.port.sweep, body := .cue p b.tag b.action how false (s.run.motions.get p).value }] } := by
  obtain ⟨comes, ⟨backstop, trigger⟩, _, last, room⟩ := fires
  obtain ⟨scans, record⟩ := marked_scanned comes
  have own := fired_scan p s.run
  rw [evaluate_completes scans rfl record ((takeCue_fired comes trigger).trans acted) (by
    show ((fired p s.run).scans.get p).cursor + 1 = _
    rw [own]
    exact last)]
  rw [complete_room _ _ (by show r.notices.length < 16; rw [notices]; exact room)]
  have set : (fired p s.run).scans.set p ((fired p s.run).scans.get p).passed = s.run.scans.set p
      { (s.run.scans.get p).passed with dotRun := (s.run.scans.get p).dotRun + 1 } := by
    rw [own]
    exact Vector.set_set ..
  dsimp only
  rw [set, own, motions, notices]
  rfl

end Sys2Proof.Machine

namespace Sys2Proof.Proofs

open Sys2Proof.Machine

/-- Settles O52: the walk reaches one record, and leaves it waiting or completes it at the end of its list. -/
theorem markIsCounted : Obligations.MarkIsCounted := by
  intro p b ordinal backstop s ha hr hq comes trigger high
  have comes' := comes
  obtain ⟨_, _, _, unheld, unmet, _⟩ := comes'
  refine ⟨fun short below => ?_, fun reached announce last room => ?_⟩
  · obtain ⟨scans, record⟩ := marked_scanned comes
    have waits : triggerMet b ((marked p s.run).motions.get p).value ((marked p s.run).scans.get p).marks = none := by
      unfold triggerMet
      rw [trigger, marked_scan]
      dsimp only
      rw [if_neg (by omega)]
      refine if_neg ?_
      cases backstop with
      | none => exact nofun
      | some v =>
        have above := below v rfl
        simp only [Option.any_some, decide_eq_true_eq]
        exact Int.not_le.2 above
    have walked := evaluate_stays (ev := .change) scans rfl record
      (takeCue_unmet (by rw [marked_scan]; exact unheld) (by rw [marked_scan]; exact unmet) waits)
    exact exec_mark_silent ha hr comes trigger (by omega) walked hq rfl
  · subst reached
    have acted : takeAction s.env p b.action (fired p s.run) = ({ s.run with scans := (fired p s.run).scans }, some .done) := by
      rw [announce]
      rfl
    have walked := evaluate_fired ⟨comes, ⟨backstop, trigger⟩, by omega, last, room⟩ acted rfl rfl
    rw [announce] at walked
    refine (exec_mark_silent ha hr comes trigger (by omega) walked hq rfl).trans ?_
    have same : ({ (s.run.scans.get p).passed with dotRun := (s.run.scans.get p).dotRun + 1 } : ScanRec)
        = { s.run.scans.get p with
            dotRun := (s.run.scans.get p).dotRun + 1, marks := 0, cursor := (s.run.scans.get p).cursor + 1, partnerRan := false } := by
      show ScanRec.mk _ _ .none _ _ _ _ none = ScanRec.mk _ _ (s.run.scans.get p).hold _ _ _ _ (s.run.scans.get p).met
      rw [unheld, unmet]
    rw [same]

end Sys2Proof.Proofs
end

section
/-! PROOFS. What a record does when its mark has brought it to its ordinal (O53). -/

namespace Sys2Proof.Machine

section
variable {e : Env} {r : Run} {p : Fin 8} {a : Action} {c : Fin 4} {z : Port}

/-! ### The tests of an action, in order (R85, R89) -/

/-- A partner or caption action. -/
def Action.asksChain : Action → Bool
  | .preroll _ | .change _ | .lampPartner | .caption => true
  | .lampDown | .tailStop | .announce => false

theorem takeAction_asksChain (h : a.asksChain = true) : takeAction e p a r = takePartnerAction e p a r := by
  cases a with
  | preroll | change | lampPartner | caption => rfl
  | lampDown | tailStop | announce => exact nomatch h

theorem takePartnerAction_alone (h : chainOf e.setup p = none) : takePartnerAction e p a r = (r, some .void) := by
  unfold takePartnerAction
  rw [h]

theorem takePartnerAction_at (h : chainOf e.setup p = some (c, z)) : takePartnerAction e p a r =
    if a.needsPartner && !pairValid e.setup c then (r, some .void)
    else if !isOnAir e.setup r p then (r, some .suppressed)
    else if !(e.setup.modes.get c).armed then (r, some .suppressed)
    else if a.deferrable && chainState r c == .switching then (r, none)
    else takeChainAction e c p (partnerOf e.setup p) a r := by
  unfold takePartnerAction
  rw [h]

theorem takePartnerAction_unpaired (h : chainOf e.setup p = some (c, z)) (needs : a.needsPartner = true)
    (pair : pairValid e.setup c = false) : takePartnerAction e p a r = (r, some .void) := by
  rw [takePartnerAction_at h, if_pos (by rw [needs, pair]; rfl)]

theorem takePartnerAction_suppressed (h : chainOf e.setup p = some (c, z))
    (pair : a.needsPartner = true → pairValid e.setup c = true)
    (tests : isOnAir e.setup r p = false ∨ (e.setup.modes.get c).armed = false) :
    takePartnerAction e p a r = (r, some .suppressed) := by
  rw [takePartnerAction_at h, if_neg (by
    cases needs : a.needsPartner with
    | false => exact nofun
    | true => rw [pair needs]; exact nofun)]
  cases onAir : isOnAir e.setup r p with
  | false => rfl
  | true =>
    have disarmed := tests.resolve_left (by rw [onAir]; exact nofun)
    rw [disarmed]
    rfl

theorem takePartnerAction_tested (h : chainOf e.setup p = some (c, z))
    (pair : a.needsPartner = true → pairValid e.setup c = true) (onAir : isOnAir e.setup r p = true)
    (armed : (e.setup.modes.get c).armed = true) : takePartnerAction e p a r =
      if a.deferrable && chainState r c == .switching then (r, none)
      else takeChainAction e c p (partnerOf e.setup p) a r := by
  rw [takePartnerAction_at h, if_neg (by
    cases needs : a.needsPartner with
    | false => exact nofun
    | true => rw [pair needs]; exact nofun), onAir, armed]
  rfl

theorem takePartnerAction_deferred (h : chainOf e.setup p = some (c, z))
    (pair : a.needsPartner = true → pairValid e.setup c = true) (onAir : isOnAir e.setup r p = true)
    (armed : (e.setup.modes.get c).armed = true) (defers : a.deferrable = true)
    (switching : (r.chains.get c).state = .switching) : takePartnerAction e p a r = (r, none) := by
  rw [takePartnerAction_tested h pair onAir armed, if_pos]
  unfold chainState
  rw [defers, switching]
  rfl

theorem takePartnerAction_taken (h : chainOf e.setup p = some (c, z))
    (pair : a.needsPartner = true → pairValid e.setup c = true) (onAir : isOnAir e.setup r p = true)
    (armed : (e.setup.modes.get c).armed = true)
    (free : a.deferrable = true → (r.chains.get c).state ≠ .switching) :
    takePartnerAction e p a r = takeChainAction e c p (partnerOf e.setup p) a r := by
  rw [takePartnerAction_tested h pair onAir armed, if_neg]
  unfold chainState
  cases defers : a.deferrable with
  | false => exact nofun
  | true => simp [free defers]

theorem disarmed_at (h : chainOf e.setup p = some (c, z)) : disarmed e.setup p = !(e.setup.modes.get c).armed := by
  unfold disarmed
  rw [h]

theorem disarmed_eq_false (h : ∀ c z, chainOf e.setup p = some (c, z) → (e.setup.modes.get c).armed = true) :
    disarmed e.setup p = false := by
  unfold disarmed
  split
  · rename_i c z hc
    rw [h c z hc]
    rfl
  · rfl

theorem takeOwnAction_disarmed (h : disarmed e.setup p = true) : takeOwnAction e p a r = (r, some .suppressed) := if_pos h

theorem takeOwnAction_waits (h : disarmed e.setup p = false) (onAir : isOnAir e.setup r p = true) :
    takeOwnAction e p a r = (putWait p r, none) :=
  (if_neg (by rw [h]; exact nofun)).trans (if_pos onAir)

theorem takeOwnAction_done (h : disarmed e.setup p = false) (onAir : isOnAir e.setup r p = false) :
    takeOwnAction e p a r = (ownAction e p a r, some .done) :=
  (if_neg (by rw [h]; exact nofun)).trans (if_neg (by rw [onAir]; exact nofun))

/-! ### What the actions ask of the Chain Unit (R86 to R88, R111) -/

theorem queueForChain_defined {d : ChainDef} (h : e.setup.chains.get c = some d) (o : Order) :
    queueForChain e c o r = { r with orders := enqueueOrder d.station o r.orders } := by
  unfold queueForChain
  rw [h]
  rfl

/-- R111: a switch made, its hold sweeps none. -/
theorem switchTo_fresh {d : ChainDef} (h : e.setup.chains.get c = some d) (i : Input) (k : SwitchKind) :
    switchTo e c i k false r = { r with
      orders := enqueueOrder d.station (.select i) r.orders
      chains := r.chains.set c ((r.chains.get c).switched i k 0) } := by
  unfold switchTo
  rw [queueForChain_defined h]
  rfl

/-- R111: a switch that keeps the hold sweeps of the hold it ends. -/
theorem switchTo_kept {d : ChainDef} (h : e.setup.chains.get c = some d) (i : Input) (k : SwitchKind) :
    switchTo e c i k true r = { r with
      orders := enqueueOrder d.station (.select i) r.orders
      chains := r.chains.set c ((r.chains.get c).switched i k (r.chains.get c).holdSweeps) } := by
  unfold switchTo
  rw [queueForChain_defined h]
  rfl

theorem onFilm_iff {x : ChainState} : x.onFilm = true ↔ x = .single ∨ x = .double := by
  cases x <;> simp [ChainState.onFilm]

/-- R111: a changeover request of a chain that is neither SINGLE nor DOUBLE. -/
theorem changeover_busy {q : Fin 8} {o : ChangeoverFrom} {keep : Bool}
    (busy : ¬ ((r.chains.get c).state = .single ∨ (r.chains.get c).state = .double)) : changeover e c p q o keep r = r := by
  unfold changeover
  split
  · rfl
  · have off : (chainState r c).onFilm = false := Bool.eq_false_iff.2 fun h => busy (onFilm_iff.1 h)
    rw [off, Bool.and_false, Bool.false_and]
    rfl

/-- R111: a changeover request of a chain in SINGLE or DOUBLE that does not carry q's picture. -/
theorem changeover_asked {q : Fin 8} {y : Port} {o : ChangeoverFrom} {keep : Bool} (hq : chainOf e.setup q = some (c, y))
    (film : (r.chains.get c).state = .single ∨ (r.chains.get c).state = .double)
    (off : (r.chains.get c).observed ≠ some y.input) (goes : ready r q = true ∨ o = .requireClear) :
    changeover e c p q o keep r = switchTo e c y.input .change keep r := by
  unfold changeover
  rw [hq]
  dsimp only
  rw [if_pos, if_pos]
  · rcases goes with h | h
    · rw [h]; rfl
    · rw [h]; exact Bool.or_true _
  · unfold chainState
    rw [onFilm_iff.2 film, beq_self_eq_true, bne_iff_ne.2 off]
    rfl

theorem plannedCaption_film {d : ChainDef} (h : e.setup.chains.get c = some d)
    (film : (r.chains.get c).state = .single ∨ (r.chains.get c).state = .double) :
    plannedCaption e c r = { r with
      orders := enqueueOrder d.station (.select (fallbackInput e.setup c)) r.orders
      chains := r.chains.set c ((r.chains.get c).switched (fallbackInput e.setup c) .planned 0) } :=
  (if_pos (onFilm_iff.2 film)).trans (switchTo_fresh h _ _)

theorem failed_eq_false {q : Fin 8} (h : (r.motions.get q).motion ≠ .broken ∧ (r.motions.get q).silent = false) :
    failed r q = false := by
  unfold failed motionOf
  rw [h.2, Bool.or_false]
  exact beq_eq_false_iff_ne.2 h.1

theorem takePreroll_required {q : Fin 8} : takePreroll e c p q true r =
    if failed r q then (holdFault e c p .preroll r, some .fault)
    else if primed r q then (prerollOrders e q r, some .done)
    else beginHold e c p q .preroll r := rfl

theorem takeChange_required {q : Fin 8} : takeChange e c p q true r =
    if failed r q then (holdFault e c p .change r, some .fault)
    else if ready r q then (changeover e c p q .requireSet false r, some .done)
    else beginHold e c p q .change r := rfl

end

/-! ### The run a mark leaves (log 5) -/

/-- The record completes; the action has touched neither the scanning records nor the notices, and raises nothing. -/
theorem mark_completes {s : State} {p : Fin 8} {b : Cue} {how : CueOutcome} {r : Run} (ha : s.acting) (hr : s.contactRight)
    (fires : MarkFires s p b)
    (acted : takeAction s.env p b.action (fired p s.run) = ({ r with scans := (fired p s.run).scans }, some how))
    (motions : r.motions = s.run.motions) (notices : r.notices = s.run.notices) (quiet : r.handoffs = [])
    (slots : r.slots = s.run.slots) : exec (.markRecognised p) s = .next { s with run := { r with
      scans := s.run.scans.set p { (s.run.scans.get p).passed with dotRun := (s.run.scans.get p).dotRun + 1 }
      notices := s.run.notices ++
        [{ sweep := s.port.sweep, body := .cue p b.tag b.action how false (s.run.motions.get p).value }] } } := by
  have walked := evaluate_fired fires acted motions notices
  obtain ⟨comes, ⟨backstop, trigger⟩, marks, _⟩ := fires
  exact exec_mark_silent ha hr comes trigger marks walked quiet slots

/-- The record stays at the cursor, its trigger met. -/
theorem mark_stays {s : State} {p : Fin 8} {b : Cue} {r : Run} (ha : s.acting) (hr : s.contactRight)
    (fires : MarkFires s p b) (acted : takeAction s.env p b.action (fired p s.run) = (r, none)) (quiet : r.handoffs = [])
    (slots : r.slots = s.run.slots) : exec (.markRecognised p) s = .next { s with run := r } := by
  obtain ⟨comes, ⟨backstop, trigger⟩, marks, _⟩ := fires
  obtain ⟨scans, record⟩ := marked_scanned comes
  exact exec_mark_silent ha hr comes trigger marks
    (evaluate_stays scans rfl record ((takeCue_fired comes trigger).trans acted)) quiet slots

/-- R101: a partner is the position at the other port of a valid pair. -/
theorem pairValid_of_partner {su : Setup} {p q : Fin 8} {c : Fin 4} {z : Port} (hc : chainOf su p = some (c, z))
    (h : partnerOf su p = some q) : pairValid su c = true := by
  unfold partnerOf at h
  rw [hc] at h
  dsimp only at h
  split at h
  · rename_i pair; exact pair
  · exact nomatch h

theorem isOnAir_of_observed {su : Setup} {r : Run} {p : Fin 8} {c : Fin 4} {z : Port} (hc : chainOf su p = some (c, z))
    (observed : (r.chains.get c).observed = some z.input) (defined : (su.positions.get p).isSome = true) :
    isOnAir su r p = true := by
  unfold isOnAir
  rw [hc]
  exact beq_iff_eq.2 (onAirPosition_of observed (chainOf_port hc) defined)

theorem defined_of_scanned {su : Setup} {r : Run} {p : Fin 8} (h : scanned su r p = true) :
    (su.positions.get p).isSome = true := by
  unfold scanned at h
  simp only [Bool.and_eq_true] at h
  exact h.1.1

theorem input_ne_other (z : Port) : z.input ≠ z.other.input := by
  cases z <;> decide

end Sys2Proof.Machine

namespace Sys2Proof.Proofs

open Sys2Proof.Machine

/-- Settles O53: the tests of R85 and R89 in order, and then the one thing each action asks for. -/
theorem markedRecordActs : Obligations.MarkedRecordActs := by
  intro p b s ha hr hq fires
  have completes := fun {how} {r : Run} => mark_completes (how := how) (r := r) ha hr fires
  have unheld : (s.run.scans.get p).hold = .none := fires.1.2.2.2.1
  have defined_p := defined_of_scanned fires.1.1
  have own_action : b.action = .lampDown ∨ b.action = .tailStop →
      takeAction s.env p b.action (fired p s.run) = takeOwnAction s.env p b.action (fired p s.run) :=
    fun own => by rcases own with h | h <;> rw [h] <;> rfl
  refine ⟨fun alone kind => ?_, fun c z hc => ⟨fun needs pair => ?_, fun asks => ⟨fun tests => ?_, fun onAir armed defers switching => ?_⟩,
    fun caption onAir armed film d hd => ?_, fun q d partner hq' hd observed armed => ⟨fun free preroll => ?_, fun change film e he => ?_,
      fun change free off => ?_, fun lamp => ⟨fun lit => ?_, fun dark busy => ?_⟩⟩, fun own => ⟨fun disarms => ?_, fun armed onAir => ?_⟩⟩,
    fun d hd offAir armed => ⟨fun tail => ?_, fun down => ?_⟩⟩
  · have asks : b.action.asksChain = true := by
      rcases kind with (⟨v, h | h⟩ | h) | h <;> rw [h] <;> rfl
    exact completes ((takeAction_asksChain asks).trans (takePartnerAction_alone alone)) rfl rfl hq rfl
  · have kind : b.action.asksChain = true ∧ b.action.needsPartner = true := by
      rcases needs with ⟨v, h | h⟩ | h <;> rw [h] <;> exact ⟨rfl, rfl⟩
    exact completes ((takeAction_asksChain kind.1).trans (takePartnerAction_unpaired hc kind.2 pair)) rfl rfl hq rfl
  · have kind : b.action.asksChain = true ∧ (b.action.needsPartner = true → pairValid s.setup c = true) := by
      rcases asks with ⟨⟨v, h | h⟩ | h, pair⟩ | h
      · rw [h]; exact ⟨rfl, fun _ => pair⟩
      · rw [h]; exact ⟨rfl, fun _ => pair⟩
      · rw [h]; exact ⟨rfl, fun _ => pair⟩
      · rw [h]; exact ⟨rfl, nofun⟩
    exact completes ((takeAction_asksChain kind.1).trans (takePartnerAction_suppressed hc kind.2 tests)) rfl rfl hq rfl
  · have kind : b.action.asksChain = true ∧ (b.action.needsPartner = true → pairValid s.setup c = true)
        ∧ b.action.deferrable = true := by
      refine ⟨?_, fun needs => ?_, ?_⟩
      · rcases defers with ⟨v, h | h⟩ | h <;> rw [h] <;> rfl
      · rcases asks with ⟨_, pair⟩ | h
        · exact pair
        · rw [h] at needs; exact nomatch needs
      · rcases defers with ⟨v, h | h⟩ | h <;> rw [h] <;> rfl
    have deferred := takePartnerAction_deferred (e := s.env) (r := fired p s.run) hc kind.2.1 onAir armed kind.2.2 switching
    refine (mark_stays ha hr fires ((takeAction_asksChain kind.1).trans deferred) hq rfl).trans ?_
    rw [← unheld]
    rfl
  · have taken := takePartnerAction_taken (e := s.env) (a := .caption) (r := fired p s.run) hc nofun onAir armed
      (fun _ => by rcases film with h | h <;> exact fun g => nomatch h.symm.trans g)
    have acted : takeAction s.env p b.action (fired p s.run) = (plannedCaption s.env c (fired p s.run), some .done) := by
      rw [caption]
      exact taken
    exact completes (acted.trans (congrArg (·, some CueOutcome.done) (plannedCaption_film hd film))) rfl rfl hq rfl
  · have pair := pairValid_of_partner hc partner
    have onAir := isOnAir_of_observed (su := s.setup) hc observed defined_p
    have taken := fun v => takePartnerAction_taken (e := s.env) (a := .preroll v) (r := fired p s.run) hc (fun _ => pair) onAir armed
      (fun _ => free)
    have ordered : prerollOrders s.env q (fired p s.run) = { fired p s.run with
        orders := enqueueOrder d.station .start (enqueueOrder d.station .dowserOpen s.run.orders) } := by
      unfold prerollOrders
      rw [queueFor_defined hd, queueFor_defined hd]
      rfl
    have acted : takeAction s.env p b.action (fired p s.run) = (prerollOrders s.env q (fired p s.run), some .done) := by
      rcases preroll with h | ⟨h, sound, primes⟩
      · rw [h, takeAction_asksChain rfl, taken, show partnerOf s.env.setup p = some q from partner]
        rfl
      · rw [h, takeAction_asksChain rfl, taken, show partnerOf s.env.setup p = some q from partner]
        refine takePreroll_required.trans ?_
        rw [failed_eq_false (r := fired p s.run) sound, if_neg nofun, if_pos (show primed (fired p s.run) q = true from primes)]
    exact completes (acted.trans (congrArg (·, some CueOutcome.done) ordered)) rfl rfl hq rfl
  · have pair := pairValid_of_partner hc partner
    have onAir := isOnAir_of_observed (su := s.setup) hc observed defined_p
    have taken := fun v => takePartnerAction_taken (e := s.env) (a := .change v) (r := fired p s.run) hc (fun _ => pair) onAir armed
      (fun _ => by rcases film with h | h <;> exact fun g => nomatch h.symm.trans g)
    have apart : ((fired p s.run).chains.get c).observed ≠ some z.other.input := fun same =>
      input_ne_other z (Option.some.inj (observed.symm.trans same))
    have acted : takeAction s.env p b.action (fired p s.run)
        = (switchTo s.env c z.other.input .change false (fired p s.run), some .done) := by
      rcases change with h | ⟨h, sound, readies⟩
      · rw [h, takeAction_asksChain rfl, taken, show partnerOf s.env.setup p = some q from partner]
        exact congrArg (·, some CueOutcome.done) (changeover_asked hq' film apart (.inr rfl))
      · rw [h, takeAction_asksChain rfl, taken, show partnerOf s.env.setup p = some q from partner]
        refine takeChange_required.trans ?_
        rw [failed_eq_false (r := fired p s.run) sound, if_neg nofun, if_pos (show ready (fired p s.run) q = true from readies),
          changeover_asked (r := fired p s.run) hq' film apart (.inl readies)]
    exact completes (acted.trans (congrArg (·, some CueOutcome.done) (switchTo_fresh he _ _))) rfl rfl hq rfl
  · have pair := pairValid_of_partner hc partner
    have onAir := isOnAir_of_observed (su := s.setup) hc observed defined_p
    have taken := takePartnerAction_taken (e := s.env) (a := .change false) (r := fired p s.run) hc (fun _ => pair) onAir armed
      (fun _ => free)
    have acted : takeAction s.env p b.action (fired p s.run) = (fired p s.run, some .done) := by
      rw [change, takeAction_asksChain rfl, taken, show partnerOf s.env.setup p = some q from partner]
      exact congrArg (·, some CueOutcome.done) (changeover_busy (r := fired p s.run) off)
    exact completes acted rfl rfl hq rfl
  · have pair := pairValid_of_partner hc partner
    have onAir := isOnAir_of_observed (su := s.setup) hc observed defined_p
    have taken := takePartnerAction_taken (e := s.env) (a := .lampPartner) (r := fired p s.run) hc (fun _ => pair) onAir armed nofun
    have acted : takeAction s.env p b.action (fired p s.run) = (fired p s.run, some .done) := by
      rw [lamp, takeAction_asksChain rfl, taken, show partnerOf s.env.setup p = some q from partner]
      exact congrArg (·, some CueOutcome.done) (strikeRequest_lit (r := fired p s.run) lit)
    exact completes acted rfl rfl hq rfl
  · have pair := pairValid_of_partner hc partner
    have onAir := isOnAir_of_observed (su := s.setup) hc observed defined_p
    have taken := takePartnerAction_taken (e := s.env) (a := .lampPartner) (r := fired p s.run) hc (fun _ => pair) onAir armed nofun
    have defined_q : definedPos s.env.setup q = true := Option.isSome_iff_exists.2 ⟨d, hd⟩
    have acted : takeAction s.env p b.action (fired p s.run)
        = (strikeRequest s.env q .urgent (fired p s.run), some .done) := by
      rw [lamp, takeAction_asksChain rfl, taken, show partnerOf s.env.setup p = some q from partner]
      rfl
    exact completes (acted.trans (congrArg (·, some CueOutcome.done)
      (strikeRequest_joins (r := fired p s.run) defined_q dark busy))) rfl rfl hq rfl
  · have disarmed_p : disarmed s.env.setup p = true := (disarmed_at hc).trans (by rw [show (s.env.setup.modes.get c).armed = _ from disarms]; rfl)
    exact completes ((own_action own).trans (takeOwnAction_disarmed disarmed_p)) rfl rfl hq rfl
  · have armed_p : disarmed s.env.setup p = false := (disarmed_at hc).trans (by rw [show (s.env.setup.modes.get c).armed = _ from armed]; rfl)
    have waits := (own_action own).trans (takeOwnAction_waits (r := fired p s.run) armed_p onAir)
    refine (mark_stays ha hr fires waits hq rfl).trans ?_
    unfold putWait fired
    rw [modScan_twice]
    rfl
  · have acted := (own_action (.inr tail)).trans (takeOwnAction_done (r := fired p s.run) (disarmed_eq_false armed) offAir)
    have ordered : ownAction s.env p b.action (fired p s.run) = { fired p s.run with
        orders := enqueueOrder d.station .dowserClose (enqueueOrder d.station .stop s.run.orders) } := by
      rw [tail]
      unfold ownAction
      dsimp only
      rw [queueFor_defined hd, queueFor_defined hd]
      rfl
    exact completes (acted.trans (congrArg (·, some CueOutcome.done) ordered)) rfl rfl hq rfl
  · have acted := (own_action (.inl down)).trans (takeOwnAction_done (r := fired p s.run) (disarmed_eq_false armed) offAir)
    have ordered : ownAction s.env p b.action (fired p s.run) = { lampDownTaken s.env p (fired p s.run) with
        orders := enqueueOrder d.station .lampDown (lampDownTaken s.env p (fired p s.run)).orders } := by
      rw [down]
      exact queueFor_defined hd _
    rw [ordered] at acted
    refine ⟨fun alone => ⟨fun plain => ?_, fun settles => ?_⟩, fun sound => ⟨fun queued => ?_, fun striking nothing => ?_⟩⟩
    · have taken := lampDownTaken_plain (e := s.env) (p := p) (r := fired p s.run) (takenDown_dark (plain.imp_right .inl))
        (fun h => by rcases plain with g | g <;> exact nomatch g.symm.trans h)
        (fun h => by rcases plain with g | g <;> exact nomatch g.symm.trans h) alone
      rw [taken] at acted
      exact completes acted rfl rfl hq rfl
    · have taken := lampDownTaken_plain (e := s.env) (p := p) (r := fired p s.run) (takenDown_settling settles)
        (fun h => nomatch settles.symm.trans h) (fun h => nomatch settles.symm.trans h) alone
      rw [taken] at acted
      exact completes acted rfl rfl hq rfl
    · have taken := lampDownTaken_queued (e := s.env) (p := p) (r := fired p s.run) (takenDown_dark (.inr (.inr queued))) queued
        (.inr (sound.unpublished (by rw [queued]; decide)))
      rw [taken] at acted
      exact completes acted rfl rfl hq rfl
    · have taken := lampDownTaken_striking (e := s.env) (p := p) (r := fired p s.run) (takenDown_striking striking) striking
        ((sound.2 p).2.1.2 striking) nothing (.inr (sound.unpublished (by rw [striking]; decide)))
      rw [taken] at acted
      exact completes acted rfl rfl hq rfl

end Sys2Proof.Proofs
end

section
/-! PROOFS. Holds begun and refused by a mark, and the runout flags an evaluation leaves (O54). -/

namespace Sys2Proof.Machine

/-! ### The runout evaluated where it only works the flags (R119 to R121) -/

/-- Both flags of a position cleared. -/
def clearFlags (p : Fin 8) (r : Run) : Run := (r.setRunoutRaised p false).setTailStopped p false

/-- R119: past runout, the guard finds the chain in no state it acts in, and the tail stop nothing to stop. -/
def RunoutInert (e : Env) (c : Fin 4) (z : Port) (p : Fin 8) (r : Run) : Prop :=
  pastRunout e.setup r c p = true →
    (isOnAir e.setup r p = true → (r.chains.get c).state ≠ .single ∧ (r.chains.get c).state ≠ .double
      ∧ (r.chains.get c).state ≠ .holding)
    ∧ (isOnAir e.setup r p = false → (r.motions.get p).motion.running = false ∨ r.tailStopped.get p = true
      ∨ isChangeTarget r c z = true)

theorem RunoutInert.of_still {e : Env} {c : Fin 4} {z : Port} {p : Fin 8} {r : Run} (h : pastRunout e.setup r c p = false) :
    RunoutInert e c z p r := fun past => nomatch h.symm.trans past

/-- What the evaluation leaves of the flags. -/
structure FlagsWorked (e : Env) (c : Fin 4) (r t : Run) : Prop where
  frame : t = { r with runoutRaised := t.runoutRaised, tailStopped := t.tailStopped }
  cleared : ∀ a z, portPosition e.setup c z = some a → pastRunout e.setup r c a = false →
    t.runoutRaised.get a = false ∧ t.tailStopped.get a = false
  kept : ∀ a, (∀ z, portPosition e.setup c z = some a → pastRunout e.setup r c a = true) →
    t.runoutRaised.get a = r.runoutRaised.get a ∧ t.tailStopped.get a = r.tailStopped.get a

section
variable {e : Env} {c : Fin 4} {r : Run} {p : Fin 8} {z : Port}

theorem evaluateRunout_still {keep : Bool} (hc : chainOf e.setup p = some (c, z)) (h : pastRunout e.setup r c p = false) :
    evaluateRunout e keep p r = clearFlags p r := by
  unfold evaluateRunout
  rw [hc]
  exact if_pos (by rw [h]; rfl)

theorem guardRunout_idle {keep : Bool} (h : (r.chains.get c).state ≠ .single ∧ (r.chains.get c).state ≠ .double
      ∧ (r.chains.get c).state ≠ .holding) : guardRunout e keep c p r = r := by
  obtain ⟨single, double, holding⟩ := h
  unfold guardRunout chainState
  cases hs : (r.chains.get c).state with
  | single => exact absurd hs single
  | double => exact absurd hs double
  | holding => exact absurd hs holding
  | switching | dark | fallback | unknown => rfl

theorem tailStop_idle (h : (r.motions.get p).motion.running = false ∨ r.tailStopped.get p = true
      ∨ isChangeTarget r c z = true) : tailStop e c z p r = r := by
  refine if_neg ?_
  unfold motionOf
  rcases h with h | h | h <;> rw [h] <;> simp

theorem evaluateRunout_past {keep : Bool} (hc : chainOf e.setup p = some (c, z)) (h : pastRunout e.setup r c p = true)
    (inert : RunoutInert e c z p r) : evaluateRunout e keep p r = r := by
  obtain ⟨onAir, offAir⟩ := inert h
  unfold evaluateRunout
  rw [hc]
  dsimp only
  rw [h, if_neg nofun]
  cases air : isOnAir e.setup r p with
  | true => exact (if_pos rfl).trans (guardRunout_idle (onAir air))
  | false => exact (if_neg nofun).trans (tailStop_idle (offAir air))

/-- One port position's flags: cleared where it is not past runout, and no other position's touched. -/
theorem evaluateRunout_flags {keep : Bool} (hc : chainOf e.setup p = some (c, z)) (inert : RunoutInert e c z p r) :
    ∃ raised stopped, evaluateRunout e keep p r = { r with runoutRaised := raised, tailStopped := stopped }
      ∧ (pastRunout e.setup r c p = false → raised.get p = false ∧ stopped.get p = false)
      ∧ (pastRunout e.setup r c p = true → raised.get p = r.runoutRaised.get p ∧ stopped.get p = r.tailStopped.get p)
      ∧ ∀ a, a ≠ p → raised.get a = r.runoutRaised.get a ∧ stopped.get a = r.tailStopped.get a := by
  cases past : pastRunout e.setup r c p with
  | true => exact ⟨_, _, evaluateRunout_past hc past inert, nofun, fun _ => ⟨rfl, rfl⟩, fun _ _ => ⟨rfl, rfl⟩⟩
  | false =>
    refine ⟨r.runoutRaised.set p false, r.tailStopped.set p false, evaluateRunout_still hc past, fun _ => ⟨?_, ?_⟩, nofun,
      fun a other => ⟨?_, ?_⟩⟩
    · rw [get_set_fin, if_pos rfl]
    · rw [get_set_fin, if_pos rfl]
    · rw [get_set_fin, if_neg (Ne.symm other)]
    · rw [get_set_fin, if_neg (Ne.symm other)]

/-- The port positions in turn (log 38): each works its own flags alone. -/
theorem foldl_evaluateRunout_flags {keep : Bool} {l : List (Fin 8)} (distinct : l.Nodup)
    (inert : ∀ a ∈ l, ∃ z, chainOf e.setup a = some (c, z) ∧ RunoutInert e c z a r) :
    ∃ raised stopped, l.foldl (fun r a => evaluateRunout e keep a r) r
        = { r with runoutRaised := raised, tailStopped := stopped }
      ∧ (∀ a ∈ l, pastRunout e.setup r c a = false → raised.get a = false ∧ stopped.get a = false)
      ∧ ∀ a, (a ∈ l → pastRunout e.setup r c a = true) →
        raised.get a = r.runoutRaised.get a ∧ stopped.get a = r.tailStopped.get a := by
  induction l generalizing r with
  | nil => exact ⟨_, _, rfl, nofun, fun _ _ => ⟨rfl, rfl⟩⟩
  | cons p l ih =>
    obtain ⟨fresh, rest⟩ := List.nodup_cons.1 distinct
    obtain ⟨z, hc, here⟩ := inert p (List.mem_cons_self ..)
    obtain ⟨raised, stopped, eq, cleared, kept, others⟩ := evaluateRunout_flags (keep := keep) hc here
    have apart : ∀ a ∈ l, a ≠ p := fun a ha same => fresh (same ▸ ha)
    have inert' : ∀ a ∈ l, ∃ z, chainOf e.setup a = some (c, z)
        ∧ RunoutInert e c z a { r with runoutRaised := raised, tailStopped := stopped } := by
      intro a ha
      obtain ⟨y, hy, later⟩ := inert a (List.mem_cons_of_mem _ ha)
      refine ⟨y, hy, fun past => ?_⟩
      obtain ⟨onAir, offAir⟩ := later past
      exact ⟨onAir, fun off => (offAir off).imp_right (Or.imp_left fun h => ((others a (apart a ha)).2).trans h)⟩
    obtain ⟨raised', stopped', eq', cleared', kept'⟩ := ih rest inert'
    refine ⟨raised', stopped', ?_, fun a ha still => ?_, fun a past => ?_⟩
    · rw [List.foldl_cons, eq, eq']
    · rcases List.mem_cons.1 ha with rfl | ha
      · obtain ⟨same, same'⟩ := kept' a fun ha => absurd ha fresh
        exact ⟨same.trans (cleared still).1, same'.trans (cleared still).2⟩
      · exact cleared' a ha still
    · obtain ⟨same, same'⟩ := kept' a fun ha => past (List.mem_cons_of_mem _ ha)
      by_cases hp : a = p
      · subst hp
        obtain ⟨stays, stays'⟩ := kept (past (List.mem_cons_self ..))
        exact ⟨same.trans stays, same'.trans stays'⟩
      · exact ⟨same.trans (others a hp).1, same'.trans (others a hp).2⟩

theorem mem_portPositions {su : Setup} {a : Fin 8} : a ∈ portPositions su c ↔ ∃ z, portPosition su c z = some a := by
  unfold portPositions
  rw [List.mem_append, Option.mem_toList, Option.mem_toList]
  exact ⟨fun h => h.elim (fun h => ⟨.zero, h⟩) fun h => ⟨.one, h⟩,
    fun ⟨z, h⟩ => by cases z with | zero => exact .inl h | one => exact .inr h⟩

theorem portPositions_nodup {su : Setup} (hs : PortsSingle su) : (portPositions su c).Nodup := by
  unfold portPositions
  cases zero : portPosition su c .zero with
  | none => cases portPosition su c .one <;> simp
  | some a =>
    cases one : portPosition su c .one with
    | none => simp
    | some b =>
      have apart : a ≠ b := fun same => (hs c c a).2.2 zero (same ▸ one)
      simpa using apart

/-- R119: the evaluation of both port positions, where each only works its flags. -/
theorem evaluatePorts_flags {keep : Bool} (hs : PortsSingle e.setup)
    (inert : ∀ a z, portPosition e.setup c z = some a → RunoutInert e c z a r) :
    FlagsWorked e c r (evaluatePorts e keep c r) := by
  obtain ⟨raised, stopped, eq, cleared, kept⟩ := foldl_evaluateRunout_flags (e := e) (r := r) (keep := keep)
    (portPositions_nodup (c := c) hs) fun a ha => by
      obtain ⟨z, port⟩ := mem_portPositions.1 ha
      exact ⟨z, chainOf_of_port hs port, inert a z port⟩
  have worked : evaluatePorts e keep c r = { r with runoutRaised := raised, tailStopped := stopped } := eq
  rw [worked]
  exact ⟨rfl, fun a z port still => cleared a (mem_portPositions.2 ⟨z, port⟩) still,
    fun a past => kept a fun ha => by obtain ⟨z, port⟩ := mem_portPositions.1 ha; exact past z port⟩

/-! ### The state derived (R104) -/

theorem running_iff {m : Motion} : m.running = true ↔ m = .runup ∨ m = .locked := by
  cases m <;> simp [Motion.running]

theorem running_eq_decide (m : Motion) : m.running = decide (m = .runup ∨ m = .locked) := by
  cases m <;> rfl

/-- The state that a projector port derives. -/
theorem derivedState_port {su : Setup} (observed : (r.chains.get c).observed = some z.input) :
    derivedState su r c = if ∃ q : Fin 8, portPosition su c z.other = some q ∧ (su.positions.get q).isSome = true
        ∧ ((r.motions.get q).motion = .runup ∨ (r.motions.get q).motion = .locked) then .double else .single := by
  unfold derivedState motionOf definedPos
  rw [observed]
  dsimp only
  rw [Port.input_port]
  dsimp only
  cases port : portPosition su c z.other with
  | none => simp
  | some q => simp [running_iff]

theorem derivedState_onFilm {su : Setup} (observed : (r.chains.get c).observed = some z.input) :
    (derivedState su r c).onFilm = true := by
  rw [derivedState_port observed]
  split <;> rfl

theorem partner_port {su : Setup} {q : Fin 8} (hc : chainOf su p = some (c, z)) (h : partnerOf su p = some q) :
    portPosition su c z.other = some q := by
  unfold partnerOf at h
  rw [hc] at h
  dsimp only at h
  split at h
  · exact h
  · exact nomatch h

/-! ### The hold-expiry rule (R110) -/

theorem raiseChain_frame (k : Fin 82) : raiseChain e k r = { r with slots := (raiseChain e k r).slots } := raise_frame ..

/-- R110: CHANGE FAILED raised, and the switch to the fallback input. -/
theorem holdExpiryRule_falls {k : HoldKind} {d : ChainDef} (hd : e.setup.chains.get c = some d)
    (onAir : onAirPosition e.setup r c = some p) (fallback : (e.setup.modes.get c).fallback = true)
    (late : k = .change ∨ pastLastPicture e.setup r p = true) : holdExpiryRule e c p k r = { r with
      slots := (raiseChain e (slotChangeFailed c) r).slots
      orders := enqueueOrder d.station (.select (fallbackInput e.setup c)) r.orders
      chains := r.chains.set c
        ((r.chains.get c).switched (fallbackInput e.setup c) .fallback (r.chains.get c).holdSweeps) } := by
  unfold holdExpiryRule
  dsimp only
  rw [raiseChain_frame]
  rw [if_neg (by
    rw [show onAirPosition e.setup { r with slots := (raiseChain e (slotChangeFailed c) r).slots } c = some p from onAir]
    simp), if_pos]
  · exact switchTo_kept hd _ _
  · rw [fallback]
    rcases late with h | h
    · rw [h]; rfl
    · rw [show pastLastPicture e.setup { r with slots := (raiseChain e (slotChangeFailed c) r).slots } p = true from h]
      exact Bool.or_true _

/-- R110: CHANGE FAILED raised, and the state derived with Fallback off. -/
theorem holdExpiryRule_derives {k : HoldKind} (onAir : onAirPosition e.setup r c = some p)
    (observed : (r.chains.get c).observed = some z.input) (fallback : (e.setup.modes.get c).fallback = false) :
    holdExpiryRule e c p k r = evaluatePorts e true c { r with
      slots := (raiseChain e (slotChangeFailed c) r).slots
      chains := r.chains.set c { r.chains.get c with state := derivedState e.setup r c } } := by
  unfold holdExpiryRule
  dsimp only
  rw [raiseChain_frame]
  rw [if_neg (by
    rw [show onAirPosition e.setup { r with slots := (raiseChain e (slotChangeFailed c) r).slots } c = some p from onAir]
    simp), fallback, Bool.false_and, if_neg nofun]
  unfold evaluateReturn
  rw [if_pos]
  · rfl
  · unfold chainState derive
    rw [Run.modChain_get, if_pos rfl]
    exact derivedState_onFilm observed

theorem raise_slots_congr {k : Fin 82} {v : Option Int} {x : Option (Fin 16 × Severity)} {a b : Run} (h : a.slots = b.slots) :
    (raise e k v x a).slots = (raise e k v x b).slots := by
  unfold raise Run.modSlot
  split
  · rw [h]
  · exact h

theorem modChain_set (f : ChainRec → ChainRec) (y : ChainRec) : (r.modChain c f).chains.set c y = r.chains.set c y :=
  Vector.set_set ..

theorem onAirPosition_congr {su : Setup} {a b : Run} (h : (a.chains.get c).observed = (b.chains.get c).observed) :
    onAirPosition su a c = onAirPosition su b c := by
  unfold onAirPosition
  rw [h]

/-- A hold begun and ended FAULT at once (log 40), with the switch to the fallback input. -/
theorem holdFault_falls {k : HoldKind} {d : ChainDef} (hd : e.setup.chains.get c = some d)
    (film : (r.chains.get c).state = .single ∨ (r.chains.get c).state = .double)
    (onAir : onAirPosition e.setup r c = some p) (fallback : (e.setup.modes.get c).fallback = true)
    (late : k = .change ∨ pastLastPicture e.setup r p = true) : holdFault e c p k r = { r with
      slots := (raiseChain e (slotChangeFailed c) r).slots
      orders := enqueueOrder d.station (.select (fallbackInput e.setup c)) r.orders
      chains := r.chains.set c ((r.chains.get c).switched (fallbackInput e.setup c) .fallback 0) } := by
  have record : (r.modChain c (fun x => { x with holdSweeps := 0 })).chains.get c = { r.chains.get c with holdSweeps := 0 } := by
    rw [Run.modChain_get, if_pos rfl]
  have same : (raiseChain e (slotChangeFailed c) (r.modChain c (fun x => { x with holdSweeps := 0 }))).slots
      = (raiseChain e (slotChangeFailed c) r).slots := raise_slots_congr rfl
  refine (if_pos (onFilm_iff.2 film)).trans ((holdExpiryRule_falls
    (r := r.modChain c (fun x => { x with holdSweeps := 0 })) hd
    ((onAirPosition_congr (by rw [record])).trans onAir) fallback late).trans ?_)
  rw [record, modChain_set, same]
  rfl

/-- And with Fallback off. -/
theorem holdFault_derives {k : HoldKind} (film : (r.chains.get c).state = .single ∨ (r.chains.get c).state = .double)
    (onAir : onAirPosition e.setup r c = some p) (observed : (r.chains.get c).observed = some z.input)
    (fallback : (e.setup.modes.get c).fallback = false) : holdFault e c p k r = evaluatePorts e true c { r with
      slots := (raiseChain e (slotChangeFailed c) r).slots
      chains := r.chains.set c { r.chains.get c with holdSweeps := 0, state := derivedState e.setup r c } } := by
  have record : (r.modChain c (fun x => { x with holdSweeps := 0 })).chains.get c = { r.chains.get c with holdSweeps := 0 } := by
    rw [Run.modChain_get, if_pos rfl]
  have same : (raiseChain e (slotChangeFailed c) (r.modChain c (fun x => { x with holdSweeps := 0 }))).slots
      = (raiseChain e (slotChangeFailed c) r).slots := raise_slots_congr rfl
  have derived : derivedState e.setup (r.modChain c (fun x => { x with holdSweeps := 0 })) c = derivedState e.setup r c := by
    unfold derivedState
    rw [record]
    rfl
  refine (if_pos (onFilm_iff.2 film)).trans ((holdExpiryRule_derives
    (r := r.modChain c (fun x => { x with holdSweeps := 0 })) (z := z)
    ((onAirPosition_congr (by rw [record])).trans onAir) (by rw [record]; exact observed) fallback).trans ?_)
  rw [record, modChain_set, same, derived]
  rfl

theorem holdFault_off {k : HoldKind} (off : ¬ ((r.chains.get c).state = .single ∨ (r.chains.get c).state = .double)) :
    holdFault e c p k r = r := if_neg fun h => off (onFilm_iff.1 h)

theorem beginHold_off {q : Fin 8} {k : HoldKind}
    (off : ¬ ((r.chains.get c).state = .single ∨ (r.chains.get c).state = .double)) :
    beginHold e c p q k r = (r, some .heldOut) := by
  refine if_neg ?_
  unfold takesHold chainState
  rw [Bool.eq_false_iff.2 fun h => off (onFilm_iff.1 h)]
  exact nofun

theorem beginHold_film {q : Fin 8} {k : HoldKind} (film : (r.chains.get c).state = .single ∨ (r.chains.get c).state = .double)
    (onAir : onAirPosition e.setup r c = some p) :
    beginHold e c p q k r = (holdStart e c p q k (putHold p q r), none) := by
  refine if_pos ?_
  unfold takesHold chainState
  rw [onFilm_iff.2 film, onAir]
  simp

theorem failed_iff {q : Fin 8} : failed r q = true ↔ (r.motions.get q).motion = .broken ∨ (r.motions.get q).silent = true := by
  unfold failed motionOf
  simp

theorem pastLastPicture_of {su : Setup} {v : Int} (reel : (su.reels.get p).lastPicture = some v)
    (referenced : (r.motions.get p).referenced = true) (h : v + 1 ≤ (r.motions.get p).value) : pastLastPicture su r p = true := by
  unfold pastLastPicture
  rw [reel]
  dsimp only
  rw [referenced, decide_eq_true (by omega)]
  rfl

theorem pastRunout_eq_false {su : Setup} (h : ¬ ∃ v, (su.reels.get p).lastPicture = some v ∧ (r.motions.get p).referenced = true
      ∧ v + ((su.modes.get c).runoutGuard : Int) ≤ (r.motions.get p).value) : pastRunout su r c p = false := by
  refine Bool.eq_false_iff.2 fun past => h ?_
  unfold pastRunout at past
  split at past
  · rename_i v reel
    simp only [Bool.and_eq_true, decide_eq_true_eq] at past
    exact ⟨v, reel, past⟩
  · exact nomatch past

end

/-- The record completes; the action has touched neither the scanning records nor the notices. -/
theorem mark_completes_raising {s : State} {p : Fin 8} {b : Cue} {how : CueOutcome} {r : Run} (ha : s.acting)
    (fires : MarkFires s p b)
    (acted : takeAction s.env p b.action (fired p s.run) = ({ r with scans := (fired p s.run).scans }, some how))
    (motions : r.motions = s.run.motions) (notices : r.notices = s.run.notices) (quiet : r.handoffs = []) :
    ∃ t, exec (.markRecognised p) s = .next t ∧ OnlyBlocksActed s t ∧ t.run = { r with
      scans := s.run.scans.set p { (s.run.scans.get p).passed with dotRun := (s.run.scans.get p).dotRun + 1 }
      notices := s.run.notices ++
        [{ sweep := s.port.sweep, body := .cue p b.tag b.action how false (s.run.motions.get p).value }] } := by
  have walked := evaluate_fired fires acted motions notices
  obtain ⟨comes, ⟨backstop, trigger⟩, marks, _⟩ := fires
  refine ⟨_, exec_mark ha comes trigger marks, onlyBlocksActed_judged _ _, ?_⟩
  rw [judged_run, walked]
  exact drain_quiet quiet

/-- R90: the record is held, whether the partner runs noted. -/
theorem putHold_fired (p q : Fin 8) (r : Run) : putHold p q (fired p r) = { r with
    scans := r.scans.set p { r.scans.get p with
      dotRun := (r.scans.get p).dotRun + 1, marks := (r.scans.get p).marks + 1, met := some false, hold := .hold
      partnerRan := decide ((r.motions.get q).motion = .runup ∨ (r.motions.get q).motion = .locked) } } := by
  unfold putHold fired motionOf
  rw [modScan_twice, running_eq_decide]
  rfl

end Sys2Proof.Machine

namespace Sys2Proof.Proofs

open Sys2Proof.Machine

/-- Settles O54: the condition has not come, so the record is held, or the hold-expiry rule ends it at once. -/
theorem holdsBegin : Obligations.HoldsBegin := by
  intro p q b k c z d s ha hr hq single fires kind hc partner hd observed armed unprimed unready
  have defined_p := defined_of_scanned fires.1.1
  have pair := pairValid_of_partner hc partner
  have onAir := isOnAir_of_observed (su := s.setup) hc observed defined_p
  have air : onAirPosition s.setup s.run c = some p := onAirPosition_of observed (chainOf_port hc) defined_p
  have port_q := partner_port hc partner
  have taken : (s.run.chains.get c).state ≠ .switching → takeAction s.env p b.action (fired p s.run) =
      if failed s.run q then (holdFault s.env c p k (fired p s.run), some .fault)
      else beginHold s.env c p q k (fired p s.run) := by
    intro free
    rcases kind with ⟨h, rfl⟩ | ⟨h, rfl⟩
    · rw [h, takeAction_asksChain rfl, takePartnerAction_taken (e := s.env) (r := fired p s.run) hc (fun _ => pair) onAir armed
        fun _ => free, show partnerOf s.env.setup p = some q from partner]
      refine takePreroll_required.trans ?_
      rw [show primed (fired p s.run) q = false from unprimed]
      rfl
    · rw [h, takeAction_asksChain rfl, takePartnerAction_taken (e := s.env) (r := fired p s.run) hc (fun _ => pair) onAir armed
        fun _ => free, show partnerOf s.env.setup p = some q from partner]
      refine takeChange_required.trans ?_
      rw [show ready (fired p s.run) q = false from unready]
      rfl
  have free_of_film : (s.run.chains.get c).state = .single ∨ (s.run.chains.get c).state = .double →
      (s.run.chains.get c).state ≠ .switching := fun film => by
    rcases film with h | h <;> exact fun g => nomatch h.symm.trans g
  refine ⟨fun sound film => ?_, fun off free => ?_, fun fails film => ⟨fun fallback late => ?_, fun fallback still => ?_⟩⟩
  · have acted := taken (free_of_film film)
    rw [if_neg fun h => sound (failed_iff.1 h), beginHold_film (r := fired p s.run) film air] at acted
    unfold holdStart at acted
    rw [putHold_fired] at acted
    refine ⟨fun lit => ?_, fun dark busy => ?_⟩
    · rw [strikeRequest_lit (by exact lit)] at acted
      exact mark_stays ha hr fires acted hq rfl
    · have defined_q : definedPos s.env.setup q = true := by
        obtain ⟨_, q', _, y, _, hq', _, hy, _⟩ := (pairValid_iff z).1 pair
        obtain rfl := Option.some.inj (hq'.symm.trans port_q)
        exact Option.isSome_iff_exists.2 ⟨y, hy⟩
      rw [strikeRequest_joins defined_q (by exact dark) (by exact busy)] at acted
      exact mark_stays ha hr fires acted hq rfl
  · have acted := taken free
    rw [holdFault_off (r := fired p s.run) off, beginHold_off (r := fired p s.run) off] at acted
    by_cases fails : failed s.run q = true
    · rw [if_pos fails] at acted
      rw [if_pos (failed_iff.1 fails)]
      exact mark_completes ha hr fires acted rfl rfl hq rfl
    · rw [if_neg fails] at acted
      rw [if_neg fun h => fails (failed_iff.2 h)]
      exact mark_completes ha hr fires acted rfl rfl hq rfl
  · have acted := taken (free_of_film film)
    have late' : k = .change ∨ pastLastPicture s.setup s.run p = true :=
      late.imp_right fun ⟨v, reel, referenced, past⟩ => pastLastPicture_of reel referenced past
    rw [if_pos (failed_iff.2 fails), holdFault_falls (r := fired p s.run) hd film air fallback late'] at acted
    obtain ⟨t, fell, only, run⟩ := mark_completes_raising (r := { s.run with
      slots := (raiseChain s.env (slotChangeFailed c) (fired p s.run)).slots
      orders := enqueueOrder d.station (.select (fallbackInput s.setup c)) s.run.orders
      chains := s.run.chains.set c ((s.run.chains.get c).switched (fallbackInput s.setup c) .fallback 0) })
      ha fires acted rfl rfl hq
    obtain ⟨raised, others⟩ := raised_alone (s := s) (t := t) (k := slotChangeFailed c) (v := none) (x := none)
      (r0 := fired p s.run) rfl (by rw [run]; rfl)
    exact ⟨t, fell, only, raised, others, by rw [run]⟩
  · have acted := taken (free_of_film film)
    have derived : derivedState s.env.setup (fired p s.run) c = if (s.setup.positions.get q).isSome = true
            ∧ decide ((s.run.motions.get q).motion = .runup ∨ (s.run.motions.get q).motion = .locked) = true
          then .double else .single := by
      rw [derivedState_port (r := fired p s.run) (z := z) observed]
      refine ite_of_iff ⟨fun ⟨q', port, defined, runs⟩ => ?_, fun ⟨defined, runs⟩ => ⟨q, port_q, defined, of_decide_eq_true runs⟩⟩
      obtain rfl := Option.some.inj (port.symm.trans port_q)
      exact ⟨defined, decide_eq_true runs⟩
    rw [if_pos (failed_iff.2 fails), holdFault_derives (r := fired p s.run) film air observed fallback, derived] at acted
    have flags := evaluatePorts_flags (e := s.env) (c := c) (keep := true) (r := { fired p s.run with
      slots := (raiseChain s.env (slotChangeFailed c) (fired p s.run)).slots
      chains := s.run.chains.set c { s.run.chains.get c with
        holdSweeps := 0
        state := if (s.setup.positions.get q).isSome = true
            ∧ decide ((s.run.motions.get q).motion = .runup ∨ (s.run.motions.get q).motion = .locked) = true
          then .double else .single } }) single
      fun a y port => RunoutInert.of_still (pastRunout_eq_false (still y a port))
    obtain ⟨t, fell, only, run⟩ := mark_completes_raising (r := { s.run with
      slots := (raiseChain s.env (slotChangeFailed c) (fired p s.run)).slots
      chains := s.run.chains.set c { s.run.chains.get c with
        holdSweeps := 0
        state := if (s.setup.positions.get q).isSome = true
            ∧ decide ((s.run.motions.get q).motion = .runup ∨ (s.run.motions.get q).motion = .locked) = true
          then .double else .single }
      runoutRaised := _, tailStopped := _ })
      ha fires (acted.trans (congrArg (·, some CueOutcome.fault) flags.frame)) rfl rfl hq
    obtain ⟨raised, others⟩ := raised_alone (s := s) (t := t) (k := slotChangeFailed c) (v := none) (x := none)
      (r0 := fired p s.run) rfl (by rw [run]; rfl)
    exact ⟨t, fell, only, raised, others, by rw [run]⟩

end Sys2Proof.Proofs
end

section
/-! PROOFS. The rules a report fires, and what each does (O59). -/

namespace Sys2Proof.Machine

section
variable {e : Env} {r : Run} {p : Fin 8} {w : Byte} {m : Motion}

theorem allRules_ascending : allRules.Pairwise (· < ·) := by
  decide

theorem mem_allRules (j : Fin 16) : j ∈ allRules := by
  revert j
  decide

/-- The rules a report fires, in rule order. -/
theorem fired_eq {l : List (Fin 16)} (fires : ∀ j, j ∈ l ↔ ruleFires e r p w m j = true) (ascending : l.Pairwise (· < ·)) :
    allRules.filter (ruleFires e r p w m) = l :=
  eq_of_ascending (allRules_ascending.filter _) ascending fun j => by
    rw [List.mem_filter, fires j]
    exact ⟨fun h => h.2, fun h => ⟨mem_allRules j, h⟩⟩

theorem countRule_frame (j : Fin 16) : countRule e p w m r j = { r with counters := (countRule e p w m r j).counters } := by
  unfold countRule
  dsimp only
  split <;> rfl

theorem foldl_countRule_frame (l : List (Fin 16)) :
    l.foldl (countRule e p w m) r = { r with counters := (l.foldl (countRule e p w m) r).counters } := by
  induction l generalizing r with
  | nil => rfl
  | cons j l ih =>
    rw [List.foldl_cons, ih, countRule_frame]

/-- R141: the run after a report has moved the counters. -/
def ruleCounted (e : Env) (p : Fin 8) (w : Byte) (m : Motion) (r : Run) : Run := allRules.foldl (countRule e p w m) r

theorem ruleCounted_frame : ruleCounted e p w m r = { r with counters := (ruleCounted e p w m r).counters } :=
  foldl_countRule_frame allRules

/-- R143, R144: a report that fires these rules. -/
theorem takeRuleReport_fires {i : Fin 16} {rest : List (Fin 16)}
    (fires : ∀ j, j ∈ i :: rest ↔ ruleFires e r p w m j = true) (ascending : (i :: rest).Pairwise (· < ·)) :
    takeRuleReport e p w m r = (i :: rest).foldl (ruleAct e p) (raiseRule e p i (ruleCounted e p w m r)) := by
  unfold takeRuleReport
  dsimp only
  rw [fired_eq fires ascending]
  rfl

/-- R144: what a rule's action that is no on-air loss makes of the order queue. -/
def ruleOrders (su : Setup) (d : PosDef) (orders : List OrderEntry) (j : Fin 16) : List OrderEntry :=
  match (su.rules.get j).action with
  | .none => orders
  | .dowser => enqueueOrder d.station .dowserClose orders
  | .stop | .loss => enqueueOrder d.station .dowserClose (enqueueOrder d.station .stop orders)

theorem ruleAct_orders {d : PosDef} (defined : e.setup.positions.get p = some d) {j : Fin 16}
    (off : (e.setup.rules.get j).action = .loss → isOnAir e.setup r p = false) :
    ruleAct e p r j = { r with orders := ruleOrders e.setup d r.orders j } := by
  have stops : stopAction e p r
      = { r with orders := enqueueOrder d.station .dowserClose (enqueueOrder d.station .stop r.orders) } := by
    unfold stopAction
    rw [queueFor_defined defined, queueFor_defined defined]
  unfold ruleAct ruleOrders
  cases action : (e.setup.rules.get j).action with
  | none => rfl
  | dowser => exact queueFor_defined defined _
  | stop => exact stops
  | loss =>
    refine Eq.trans (if_neg ?_) stops
    rw [off action]
    exact nofun

theorem foldl_ruleAct_orders {d : PosDef} (defined : e.setup.positions.get p = some d) {l : List (Fin 16)}
    (off : ∀ j ∈ l, (e.setup.rules.get j).action = .loss → isOnAir e.setup r p = false) :
    l.foldl (ruleAct e p) r = { r with orders := l.foldl (ruleOrders e.setup d) r.orders } := by
  induction l generalizing r with
  | nil => rfl
  | cons j l ih =>
    rw [List.foldl_cons, ruleAct_orders defined (off j (List.mem_cons_self ..)),
      ih (r := { r with orders := ruleOrders e.setup d r.orders j }) fun k hk => off k (List.mem_cons_of_mem _ hk)]
    rfl

theorem raiseRule_frame (i : Fin 16) : raiseRule e p i r = { r with slots := (raiseRule e p i r).slots } := raise_frame ..

theorem ruleDue_of_fires {j : Fin 16} (defined : (e.setup.positions.get p).isSome = true)
    (fires : ruleFires e r p w (motionOf r p) j = true) : ruleDue e p w r = true := by
  unfold ruleDue definedPos anyRuleFires
  rw [defined, Bool.true_and]
  exact List.any_eq_true.2 ⟨j, mem_allRules j, fires⟩

end

/-- R152: a slot raised while it was clear holds the rule it was raised with. -/
theorem rule_captured {s : State} {k : Fin 82} {v : Option Int} {i : Fin 16} {severity : Severity} {r0 t : Run}
    (before : r0.slots.get k = s.run.slots.get k) (acts : Acts s.env true true (raise s.env k v (some (i, severity)) r0) t)
    (on : s.setup.enables.get (classOf k) = true) (clear : (s.run.slots.get k).pending = false)
    (free : (s.run.slots.get k).underService = false) : (t.slots.get k).rule = some (i, severity) := by
  have kept := acts.slot_keeps (k := k) (P := fun y => y.pending = true ∧ y.rule = some (i, severity))
    (fun w v x y _ hy => by
      unfold Slot.raised
      rw [if_pos hy.1]
      exact hy) (by
    rw [raise_slot, if_pos ⟨rfl, on⟩, before]
    unfold Slot.raised
    rw [if_neg (by rw [clear]; exact nofun), free]
    exact ⟨rfl, rfl⟩)
  exact kept.2

end Sys2Proof.Machine

namespace Sys2Proof.Proofs

open Sys2Proof.Machine

/-- Settles O59: the counters move, RULE is raised once, and the actions follow in rule order. -/
theorem ruleFires : Obligations.RuleFires := by
  intro p w i rest d s ha hq hd
  dsimp only
  intro members ascending
  have fires : ∀ j, j ∈ i :: rest ↔ Machine.ruleFires s.env s.run p w (motionOf s.run p) j = true :=
    fun j => (members j).trans (ruleFires_iff (e := s.env) (r := s.run) (m := motionOf s.run p)).symm
  have first := (fires i).1 (List.mem_cons_self ..)
  have due : ruleDue s.env p w s.run = true := ruleDue_of_fires (Option.isSome_iff_exists.2 ⟨d, hd⟩) first
  have acted := takeRuleReport_fires (e := s.env) fires ascending
  have counted := ruleCounted_frame (e := s.env) (p := p) (w := w) (m := motionOf s.run p) (r := s.run)
  have slots : (ruleCounted s.env p w (motionOf s.run p) s.run).slots = s.run.slots := by rw [counted]
  have value : raiseRule s.env p i (ruleCounted s.env p w (motionOf s.run p) s.run) = raise s.env (slotRule p)
      (some (s.run.motions.get p).value) (some (i, (s.setup.rules.get i).severity))
      (ruleCounted s.env p w (motionOf s.run p) s.run) := by
    unfold raiseRule
    rw [counted]
    rfl
  have acts : Acts s.env true true (raise s.env (slotRule p) (some (s.run.motions.get p).value)
      (some (i, (s.setup.rules.get i).severity)) (ruleCounted s.env p w (motionOf s.run p) s.run))
      (takeRuleReport s.env p w (motionOf s.run p) s.run) := by
    rw [acted, ← value]
    exact foldl_acts (fun _ j h => ruleAct_acts p j h) _ .refl
  have still : Acts s.env false true s.run (takeRuleReport s.env p w (motionOf s.run p) s.run) :=
    takeRuleReport_acts p w _ .refl
  obtain ⟨t, fell, only, run, motions⟩ := event_drains (count := fun _ r => r) (due := fun e r => ruleDue e p w r)
    (f := fun e r => takeRuleReport e p w (motionOf r p) r) ha due rfl (still.noMotionDue (noMotionDue_of_quiet hq))
  refine ⟨t, congrArg Host.Outcome.next fell, only,
    ladderKept_of_event (i := .ruleFire p w) rfl (congrArg Host.Outcome.next fell), motions.trans still.motions,
    raisedIn_of_drain (by rw [slots]) acts run, fun on clear free => ?_, fun off => ?_⟩
  · rw [run]
    exact rule_captured (by rw [slots]) (drain_acts rfl acts) on clear free
  · have ordered := foldl_ruleAct_orders (e := s.env) (l := i :: rest)
      (r := raiseRule s.env p i (ruleCounted s.env p w (motionOf s.run p) s.run)) hd fun j hj loss => by
        rw [raiseRule_frame, counted]
        exact off j hj loss
    have left : t.run = { s.run with
        slots := (raiseRule s.env p i (ruleCounted s.env p w (motionOf s.run p) s.run)).slots
        counters := (ruleCounted s.env p w (motionOf s.run p) s.run).counters
        orders := (i :: rest).foldl (ruleOrders s.setup d) s.run.orders } := by
      rw [run, acted, ordered, drain_quiet]
      · rw [raiseRule_frame, counted]
        rfl
      · rw [raiseRule_frame, counted]
        exact hq
    refine ⟨by rw [left]; rfl, fun j other => ?_⟩
    rw [left]
    exact (congrFun (congrArg Vector.get (congrArg Run.slots value)) j).trans
      ((raise_slot_other _ _ other).trans (by rw [slots]))

end Sys2Proof.Proofs
end

section
/-! PROOFS. An on-air loss: the hold ended, the reaction, and the runout evaluated after it (O60). -/

namespace Sys2Proof.Machine

section
variable {e : Env} {c : Fin 4} {r : Run} {p : Fin 8} {z : Port}

/-! ### A hold ended (R109) -/

theorem derivedState_congr {su : Setup} {a b : Run} (observed : (a.chains.get c).observed = (b.chains.get c).observed)
    (motions : a.motions = b.motions) : derivedState su a c = derivedState su b c := by
  unfold derivedState motionOf
  rw [observed, motions]

/-- The hold cleared, its sweeps kept, and the state derived. -/
theorem derive_clearHold : derive e c (clearHold e c r) = { r with
    chains := r.chains.set c ((r.chains.get c).unheld (e.setup.modes.get c).holdLimit (derivedState e.setup r c)) } := by
  have record : (clearHold e c r).chains.get c = { r.chains.get c with
      hold := none, holdTimer := .idle
      holdSweeps := holdCount (e.setup.modes.get c).holdLimit (r.chains.get c).holdTimer } := by
    unfold clearHold
    rw [Run.modChain_get, if_pos rfl]
  have count : holdCount (e.setup.modes.get c).holdLimit (r.chains.get c).holdTimer = match (r.chains.get c).holdTimer with
      | .running n => n
      | .expired => (e.setup.modes.get c).holdLimit
      | .idle => 0 := by
    cases (r.chains.get c).holdTimer <;> rfl
  have derived : derivedState e.setup (clearHold e c r) c = derivedState e.setup r c :=
    derivedState_congr (by rw [record]) rfl
  unfold derive Run.modChain
  dsimp only
  rw [record, derived, count]
  unfold clearHold
  rw [modChain_set]
  rfl

/-! ### Lists of port positions (log 38) -/

theorem foldl_fixed {α β : Type} {f : α → β → α} {x : α} {l : List β} (h : ∀ a ∈ l, f x a = x) : l.foldl f x = x := by
  induction l with
  | nil => rfl
  | cons a l ih => rw [List.foldl_cons, h a (List.mem_cons_self ..), ih fun b hb => h b (List.mem_cons_of_mem _ hb)]

/-- Where one element alone acts, the fold is its act. -/
theorem foldl_alone {α β : Type} {f : α → β → α} {x : α} {l : List β} {b : β} (distinct : l.Nodup) (mem : b ∈ l)
    (others : ∀ a ∈ l, a ≠ b → f x a = x ∧ f (f x b) a = f x b) : l.foldl f x = f x b := by
  induction l with
  | nil => exact nomatch mem
  | cons a l ih =>
    obtain ⟨fresh, rest⟩ := List.nodup_cons.1 distinct
    rw [List.foldl_cons]
    rcases List.mem_cons.1 mem with rfl | mem
    · exact foldl_fixed fun a ha => (others a (List.mem_cons_of_mem _ ha) fun same => fresh (same ▸ ha)).2
    · rw [(others a (List.mem_cons_self ..) fun same => fresh (same ▸ mem)).1]
      exact ih rest mem fun d hd => others d (List.mem_cons_of_mem _ hd)

theorem evaluate_end {ev : CueEvent} (h : scanned e.setup r p = false ∨ cursorRecord e.setup r p = none) :
    evaluate e ev p r = r := by
  rcases h with h | h
  · exact evaluate_unscanned h
  · unfold evaluate
    split
    · exact walk_stops (takeRecord_end h)
    · rfl

theorem evaluateBoth_end {ev : CueEvent} (h : ∀ a z, portPosition e.setup c z = some a →
      scanned e.setup r a = false ∨ cursorRecord e.setup r a = none) : evaluateBoth e ev c r = r :=
  foldl_fixed fun a ha => by
    obtain ⟨z, port⟩ := mem_portPositions.1 ha
    exact evaluate_end (h a z port)

/-! ### The NEXT position (R102, R117) -/

/-- R102, R117: q stands by for p. -/
def StandsBy (su : Setup) (r : Run) (p q : Fin 8) : Prop :=
  partnerOf su p = some q ∧ (r.motions.get q).motion ≠ .broken ∧ (r.motions.get q).silent = false
    ∧ (r.lamps.get q).fault = false

theorem roleOf_onAir_ne_next {su : Setup} (hc : chainOf su p = some (c, z)) (onAir : onAirPosition su r c = some p) :
    roleOf su r p ≠ .next := by
  unfold roleOf
  rw [hc]
  dsimp only
  rw [onAir]
  dsimp only
  rw [if_pos rfl]
  split
  · exact nofun
  · split <;> exact nofun

theorem roleOf_standsBy {su : Setup} {q : Fin 8} (hs : PortsSingle su) (hc : chainOf su p = some (c, z))
    (onAir : onAirPosition su r c = some p) (h : StandsBy su r p q) : roleOf su r q = .next := by
  obtain ⟨partner, sound, shown, lit⟩ := h
  have port := partner_port hc partner
  have pair := pairValid_of_partner hc partner
  obtain ⟨_, q', _, y, _, hq', _, hy, _⟩ := (pairValid_iff z).1 pair
  obtain rfl := Option.some.inj (hq'.symm.trans port)
  have apart : p ≠ q' := fun same => Port.other_ne z (hs.unique port (same ▸ chainOf_port hc)).2
  rw [roleOf_sound (Option.isSome_iff_exists.2 ⟨y, hy⟩) (by
    rintro (h | h | h)
    · exact sound h
    · exact nomatch shown.symm.trans h
    · exact nomatch lit.symm.trans h), chainOf_of_port hs port]
  dsimp only
  rw [onAir]
  dsimp only
  rw [if_neg apart, if_pos pair]

theorem nextOf_standsBy {su : Setup} {q : Fin 8} (hs : PortsSingle su) (hc : chainOf su p = some (c, z))
    (onAir : onAirPosition su r c = some p) (h : StandsBy su r p q) : nextOf su r c = some q := by
  have port := partner_port hc h.1
  have next := roleOf_standsBy hs hc onAir h
  have other := roleOf_onAir_ne_next hc onAir
  unfold nextOf
  cases hx : (portPositions su c).find? (fun p => roleOf su r p == .next) with
  | none => exact absurd (List.find?_eq_none.1 hx q (mem_portPositions.2 ⟨_, port⟩)) (by rw [next]; simp)
  | some a =>
    have role := List.find?_some hx
    obtain ⟨y, at_port⟩ := mem_portPositions.1 (List.mem_of_find?_eq_some hx)
    rcases Port.eq_or_other z y with rfl | rfl
    · obtain rfl := Option.some.inj (at_port.symm.trans (chainOf_port hc))
      exact absurd (beq_iff_eq.1 role) other
    · exact congrArg some (Option.some.inj (at_port.symm.trans port))

theorem nextOf_none {su : Setup} (hc : chainOf su p = some (c, z)) (onAir : onAirPosition su r c = some p)
    (h : ∀ q, portPosition su c z.other = some q → roleOf su r q ≠ .next) : nextOf su r c = none := by
  unfold nextOf
  refine List.find?_eq_none.2 fun a ha => ?_
  obtain ⟨y, port⟩ := mem_portPositions.1 ha
  rw [beq_iff_eq]
  rcases Port.eq_or_other z y with rfl | rfl
  · obtain rfl := Option.some.inj (port.symm.trans (chainOf_port hc))
    exact roleOf_onAir_ne_next hc onAir
  · exact h a port

/-! ### The reaction (R117) -/

theorem reactToLoss_off {keep : Bool} (h : ¬ ((r.chains.get c).state = .single ∨ (r.chains.get c).state = .double)
      ∨ (e.setup.modes.get c).fallback = false) : reactToLoss e c p keep r = r := by
  refine if_neg ?_
  unfold chainState
  rcases h with h | h
  · rw [Bool.eq_false_iff.2 fun film => h (onFilm_iff.1 film)]
    exact nofun
  · rw [h, Bool.and_false]
    exact nofun

/-- R111: a switch made. -/
theorem switchTo_eq {d : ChainDef} (h : e.setup.chains.get c = some d) (i : Input) (k : SwitchKind) (keep : Bool) :
    switchTo e c i k keep r = { r with
      orders := enqueueOrder d.station (.select i) r.orders
      chains := r.chains.set c ((r.chains.get c).switched i k (if keep then (r.chains.get c).holdSweeps else 0)) } := by
  unfold switchTo
  rw [queueForChain_defined h]
  rfl

section
variable {d : ChainDef} {keep : Bool} {q : Fin 8} (film : (r.chains.get c).state = .single ∨ (r.chains.get c).state = .double)
  (fallback : (e.setup.modes.get c).fallback = true)
include film fallback

theorem reactToLoss_film : reactToLoss e c p keep r =
    match nextOf e.setup r c with
    | some q =>
      if ready r q then changeover e c p q .emergency keep r
      else strikeRequest e q .urgent (switchToFallback e c keep r)
    | none => switchToFallback e c keep r :=
  if_pos (by unfold chainState; rw [onFilm_iff.2 film, fallback]; rfl)

theorem reactToLoss_ready (hd : e.setup.chains.get c = some d) (next : nextOf e.setup r c = some q)
    (hq : chainOf e.setup q = some (c, z.other)) (observed : (r.chains.get c).observed = some z.input)
    (readies : (r.lamps.get q).ready = true) : reactToLoss e c p keep r = { r with
      orders := enqueueOrder d.station (.select z.other.input) r.orders
      chains := r.chains.set c ((r.chains.get c).switched z.other.input .change
        (if keep then (r.chains.get c).holdSweeps else 0)) } := by
  rw [reactToLoss_film film fallback, next]
  dsimp only
  rw [if_pos (show ready r q = true from readies), changeover_asked hq film
    (fun same => input_ne_other z (Option.some.inj (observed.symm.trans same))) (.inl readies)]
  exact switchTo_eq hd _ _ _

theorem reactToLoss_unready (hd : e.setup.chains.get c = some d) (next : nextOf e.setup r c = some q)
    (unready : (r.lamps.get q).ready = false) : reactToLoss e c p keep r = strikeRequest e q .urgent { r with
      orders := enqueueOrder d.station (.select (fallbackInput e.setup c)) r.orders
      chains := r.chains.set c ((r.chains.get c).switched (fallbackInput e.setup c) .fallback
        (if keep then (r.chains.get c).holdSweeps else 0)) } := by
  rw [reactToLoss_film film fallback, next]
  dsimp only
  rw [if_neg (by rw [show ready r q = false from unready]; exact nofun)]
  exact congrArg (strikeRequest e q .urgent) (switchTo_eq hd _ _ _)

theorem reactToLoss_alone (hd : e.setup.chains.get c = some d) (next : nextOf e.setup r c = none) :
    reactToLoss e c p keep r = { r with
      orders := enqueueOrder d.station (.select (fallbackInput e.setup c)) r.orders
      chains := r.chains.set c ((r.chains.get c).switched (fallbackInput e.setup c) .fallback
        (if keep then (r.chains.get c).holdSweeps else 0)) } := by
  rw [reactToLoss_film film fallback, next]
  exact switchTo_eq hd _ _ _

end

/-! ### The held record completed (R93) -/

theorem completeHeld_unscanned (h : scanned e.setup r p = false) : completeHeld e r p = r := by
  refine if_neg ?_
  rw [h]
  exact nofun

/-- R109: the end of a hold finds its chain not HOLDING. -/
theorem holdEnd_unheld {how : HoldEnd} (h : (r.chains.get c).state ≠ .holding) (soon : ∀ q, how ≠ .late q) :
    holdEnd e c p how r = r := by
  unfold holdEnd chainState
  split
  · rename_i held _
    exact absurd held h
  · exact absurd rfl (soon _)
  · rfl

theorem completeHeld_faults {b : Cue} {q : Fin 8} (scans : scanned e.setup r p = true) (held : (r.scans.get p).hold = .hold)
    (record : cursorRecord e.setup r p = some (some b)) (hc : chainOf e.setup p = some (c, z))
    (partner : partnerOf e.setup p = some q) (state : (r.chains.get c).state ≠ .holding) (room : r.notices.length < 16) :
    completeHeld e r p = { r with
      scans := r.scans.set p (r.scans.get p).passed
      notices := r.notices ++
        [{ sweep := e.sweep
           body := .cue p b.tag b.action .fault ((r.scans.get p).met == some true) (r.motions.get p).value }] } := by
  have taken : takeCue e .onAirLoss p b r = (notePartnerRan p q r, some .fault) := by
    unfold takeCue
    dsimp only
    rw [held]
    unfold takeHeld
    rw [hc, partner]
    exact congrArg (·, some CueOutcome.fault) (holdEnd_unheld (r := notePartnerRan p q r) state nofun)
  have noted : (notePartnerRan p q r).scans.get p = { r.scans.get p with
      partnerRan := (r.scans.get p).partnerRan || (motionOf r q).running } := by
    unfold notePartnerRan
    rw [Run.modScan_get, if_pos rfl]
  refine (if_pos (by rw [scans, held]; rfl)).trans ?_
  rw [takeRecord_completes record taken]
  dsimp only
  rw [complete_room (r := notePartnerRan p q r) b .fault room, noted]
  unfold notePartnerRan Run.modScan
  dsimp only
  rw [Vector.set_set]

/-! ### The loss whole (R93, R117, R119) -/

/-- The chain's record with its hold, if it has one, ended. -/
def holdOver (e : Env) (c : Fin 4) (r : Run) : ChainRec :=
  if (r.chains.get c).state = .holding then
    (r.chains.get c).unheld (e.setup.modes.get c).holdLimit (derivedState e.setup r c)
  else r.chains.get c

/-- What comes before the reaction: the hold ended, and what was held completed. -/
def lossBegun (e : Env) (c : Fin 4) (r : Run) : Run :=
  (portPositions e.setup c).foldl (completeHeld e) (if chainState r c == .holding then derive e c (clearHold e c r) else r)

theorem holdOver_run : (if chainState r c == .holding then derive e c (clearHold e c r) else r)
    = { r with chains := r.chains.set c (holdOver e c r) } := by
  unfold holdOver chainState
  by_cases held : (r.chains.get c).state = .holding
  · rw [if_pos held, if_pos (beq_iff_eq.2 held), derive_clearHold]
  · rw [if_neg held, if_neg (fun h => held (beq_iff_eq.1 h)), set_get_self]

theorem holdOver_state_ne (observed : (r.chains.get c).observed = some z.input) : (holdOver e c r).state ≠ .holding := by
  unfold holdOver
  split
  · rw [show ((r.chains.get c).unheld (e.setup.modes.get c).holdLimit (derivedState e.setup r c)).state
      = derivedState e.setup r c from rfl, derivedState_port observed]
    split <;> exact nofun
  · rename_i h; exact h

/-- Where no reel but p's is scanned, what p's reel holds, as the last of its list, completes. -/
theorem lossBegun_eq {scans : Vector ScanRec 8} {notices : List Notice} (hs : PortsSingle e.setup)
    (hc : chainOf e.setup p = some (c, z)) (observed : (r.chains.get c).observed = some z.input)
    (others : ∀ q, portPosition e.setup c z.other = some q → scanned e.setup r q = false)
    (own : scanned e.setup r p = false ∧ scans = r.scans ∧ notices = r.notices
      ∨ scanned e.setup r p = true ∧ (r.scans.get p).hold = .hold ∧ (∃ q, partnerOf e.setup p = some q)
        ∧ r.notices.length < 16 ∧ scans = r.scans.set p (r.scans.get p).passed
        ∧ ∃ b, cursorRecord e.setup r p = some (some b) ∧ notices = r.notices ++
          [{ sweep := e.sweep
             body := .cue p b.tag b.action .fault ((r.scans.get p).met == some true) (r.motions.get p).value }]) :
    lossBegun e c r = { r with chains := r.chains.set c (holdOver e c r), scans := scans, notices := notices } := by
  have unheld : (({ r with chains := r.chains.set c (holdOver e c r) } : Run).chains.get c).state ≠ .holding := by
    dsimp only
    rw [get_set_fin, if_pos rfl]
    exact holdOver_state_ne observed
  have completed : completeHeld e { r with chains := r.chains.set c (holdOver e c r) } p
      = { r with chains := r.chains.set c (holdOver e c r), scans := scans, notices := notices } := by
    rcases own with ⟨idle, rfl, rfl⟩ | ⟨runs, held, ⟨q, partner⟩, room, rfl, b, record, rfl⟩
    · exact completeHeld_unscanned (r := { r with chains := r.chains.set c (holdOver e c r) }) idle
    · exact completeHeld_faults (r := { r with chains := r.chains.set c (holdOver e c r) }) runs held record hc partner unheld room
  unfold lossBegun
  rw [holdOver_run]
  refine (foldl_alone (portPositions_nodup (c := c) hs) (mem_portPositions.2 ⟨z, chainOf_port hc⟩) fun a ha apart => ?_).trans completed
  obtain ⟨y, port⟩ := mem_portPositions.1 ha
  have idle : scanned e.setup r a = false := by
    rcases Port.eq_or_other z y with rfl | rfl
    · exact absurd (Option.some.inj (port.symm.trans (chainOf_port hc))) apart
    · exact others a port
  rw [completed]
  exact ⟨completeHeld_unscanned (r := { r with chains := r.chains.set c (holdOver e c r) }) idle,
    completeHeld_unscanned (r := { r with chains := r.chains.set c (holdOver e c r), scans := scans, notices := notices }) idle⟩

/-- The whole of a loss, where no reel of the chain has anything more to take and the runout only works its flags. -/
theorem onAirLoss_eq {X : Run} (hs : PortsSingle e.setup) (observed : (r.chains.get c).observed = some z.input)
    (react : reactToLoss e c p (chainState r c == .holding) (lossBegun e c r) = X)
    (inert : (r.chains.get c).state = .holding → ∀ a z, portPosition e.setup c z = some a → RunoutInert e c z a X)
    (done : ∀ a z, portPosition e.setup c z = some a → scanned e.setup X a = false ∨ cursorRecord e.setup X a = none) :
    ∃ raised stopped, onAirLoss e c p r = { X with runoutRaised := raised, tailStopped := stopped }
      ∧ ((r.chains.get c).state ≠ .holding → raised = X.runoutRaised ∧ stopped = X.tailStopped)
      ∧ ((r.chains.get c).state = .holding →
        FlagsWorked e c X { X with runoutRaised := raised, tailStopped := stopped }) := by
  have whole : onAirLoss e c p r = evaluateBoth e .onAirLoss c (if chainState r c == .holding
      then evaluateReturn e true c (derive e c (clearHold e c r)) X else X) := by
    rw [← react]
    unfold onAirLoss lossBegun
    dsimp only
    cases held : chainState r c == .holding <;> rfl
  rw [whole]
  by_cases held : (r.chains.get c).state = .holding
  · have back : (chainState (derive e c (clearHold e c r)) c).onFilm = true := by
      rw [derive_clearHold]
      unfold chainState
      dsimp only
      rw [get_set_fin, if_pos rfl]
      exact derivedState_onFilm observed
    have flags := evaluatePorts_flags (e := e) (c := c) (keep := true) (r := X) hs (inert held)
    have evaluated : (if chainState r c == .holding then evaluateReturn e true c (derive e c (clearHold e c r)) X else X)
        = evaluatePorts e true c X :=
      (if_pos (beq_iff_eq.2 held)).trans (if_pos back)
    rw [evaluated]
    refine ⟨_, _, (evaluateBoth_end fun a y port => ?_).trans flags.frame, fun unheld => absurd held unheld, fun _ => ?_⟩
    · rw [flags.frame]
      exact done a y port
    · rw [← flags.frame]
      exact flags
  · rw [if_neg (fun h => held (beq_iff_eq.1 h) : ¬ (chainState r c == .holding) = true)]
    exact ⟨_, _, evaluateBoth_end done, fun _ => ⟨rfl, rfl⟩, fun h => absurd h held⟩

end

end Sys2Proof.Machine
end

section
/-! PROOFS. One rule with action LOSS, fired for the position on air (O60). -/

namespace Sys2Proof.Machine

/-- The run in which the one fired rule acts: the counters moved and RULE raised. -/
def ruleRaised (s : State) (p : Fin 8) (w : Byte) (i : Fin 16) : Run :=
  raiseRule s.env p i (ruleCounted s.env p w (motionOf s.run p) s.run)

theorem ruleRaised_frame (s : State) (p : Fin 8) (w : Byte) (i : Fin 16) : ruleRaised s p w i = { s.run with
    slots := (ruleRaised s p w i).slots, counters := (ruleRaised s p w i).counters } := by
  unfold ruleRaised
  rw [raiseRule_frame, ruleCounted_frame]

/-- The row, where what the loss leaves hands nothing on. -/
theorem exec_ruleFire_loss {s : State} {p : Fin 8} {w : Byte} {i : Fin 16} {c : Fin 4} {z : Port} {r : Run} (ha : s.acting)
    (defined : (s.setup.positions.get p).isSome = true)
    (fires : ∀ j, j ∈ [i] ↔ ruleFires s.env s.run p w (motionOf s.run p) j = true)
    (loss : (s.setup.rules.get i).action = .loss) (hc : chainOf s.setup p = some (c, z))
    (onAir : isOnAir s.setup s.run p = true) (acted : onAirLoss s.env c p (ruleRaised s p w i) = r) (quiet : r.handoffs = [])
    (slots : r.slots = (ruleRaised s p w i).slots) :
    ∃ t, exec (.ruleFire p w) s = .next t ∧ OnlyBlocksActed s t ∧ t.run = r
      ∧ RaisedIn s t (slotRule p) (some (s.run.motions.get p).value)
      ∧ ∀ j, j ≠ slotRule p → t.run.slots.get j = s.run.slots.get j := by
  have counted := ruleCounted_frame (e := s.env) (p := p) (w := w) (m := motionOf s.run p) (r := s.run)
  have air : isOnAir s.env.setup (ruleRaised s p w i) p = true := by
    rw [ruleRaised_frame]
    exact onAir
  have taken : takeRuleReport s.env p w (motionOf s.run p) s.run = r := by
    rw [takeRuleReport_fires fires (List.pairwise_singleton ..)]
    show ruleAct s.env p (ruleRaised s p w i) i = r
    have lost : ruleAct s.env p (ruleRaised s p w i) i = onAirLoss s.env c p (ruleRaised s p w i) := by
      unfold ruleAct
      rw [show (s.env.setup.rules.get i).action = .loss from loss]
      refine (if_pos air).trans ?_
      unfold takeFault
      rw [show chainOf s.env.setup p = some (c, z) from hc]
      exact if_pos air
    rw [lost, acted]
  have due : ruleDue s.env p w s.run = true := ruleDue_of_fires defined ((fires i).1 (List.mem_singleton.2 rfl))
  obtain ⟨t, fell, only, run, raised⟩ := event_raises (count := fun _ r => r) (due := fun e r => ruleDue e p w r)
    (f := fun e r => takeRuleReport e p w (motionOf r p) r) (k := slotRule p) (v := some (s.run.motions.get p).value)
    (x := some (i, (s.setup.rules.get i).severity)) (r0 := ruleCounted s.env p w (motionOf s.run p) s.run) ha due taken quiet
    (by rw [counted]) (by
      rw [slots]
      unfold ruleRaised raiseRule
      rw [counted]
      rfl)
  exact ⟨t, congrArg Host.Outcome.next fell, only, run, raised⟩

theorem runoutWorked_of_flags {s t : State} {c : Fin 4} {X : Run} (flags : FlagsWorked s.env c X t.run)
    (motions : X.motions = s.run.motions) (raised : X.runoutRaised = s.run.runoutRaised)
    (stopped : X.tailStopped = s.run.tailStopped) : RunoutWorked s t c := by
  have same : ∀ a, pastRunout s.env.setup X c a = pastRunout s.setup s.run c a := fun a => by
    unfold pastRunout
    rw [motions]
    rfl
  refine ⟨fun a z port still => flags.cleared a z port ((same a).trans still), fun a past => ?_⟩
  rw [← raised, ← stopped]
  exact flags.kept a fun z port => (same a).trans (past z port)

/-- What the row leaves, once the reaction is known. -/
theorem loss_answered {s : State} {p : Fin 8} {w : Byte} {i : Fin 16} {c : Fin 4} {z : Port} {y : ChainRec}
    {orders : List OrderEntry} {queue : List StrikeEntry} {lamps : Vector LampRec 8} {scans : Vector ScanRec 8}
    {notices : List Notice} (ha : s.acting) (hq : s.quiet) (single : PortsSingle s.setup)
    (defined : (s.setup.positions.get p).isSome = true)
    (fires : ∀ j, j ∈ [i] ↔ ruleFires s.env s.run p w (motionOf s.run p) j = true)
    (loss : (s.setup.rules.get i).action = .loss) (hc : chainOf s.setup p = some (c, z))
    (observed : (s.run.chains.get c).observed = some z.input)
    (done : ∀ a z, portPosition s.setup c z = some a →
      scanned s.setup s.run a = false ∨ (scans.get a).cursor = listLength s.setup a)
    (react : reactToLoss s.env c p (chainState s.run c == .holding) (lossBegun s.env c (ruleRaised s p w i))
      = { s.run with
          slots := (ruleRaised s p w i).slots, counters := (ruleRaised s p w i).counters
          chains := s.run.chains.set c y, orders := orders, strikeQueue := queue, lamps := lamps, scans := scans
          notices := notices })
    (inert : (s.run.chains.get c).state = .holding → ∀ a z, portPosition s.setup c z = some a →
      RunoutInert s.env c z a { s.run with chains := s.run.chains.set c y }) :
    ∃ t, exec (.ruleFire p w) s = .next t
      ∧ (OnlyBlocksActed s t ∧ RaisedIn s t (slotRule p) (some (s.run.motions.get p).value)
        ∧ ∀ j, j ≠ slotRule p → t.run.slots.get j = s.run.slots.get j)
      ∧ ((s.run.chains.get c).state = .holding → RunoutWorked s t c)
      ∧ ((s.run.chains.get c).state ≠ .holding →
          t.run.runoutRaised = s.run.runoutRaised ∧ t.run.tailStopped = s.run.tailStopped)
      ∧ t.run = { s.run with
          slots := t.run.slots, counters := t.run.counters, chains := s.run.chains.set c y, orders := orders
          strikeQueue := queue, lamps := lamps, scans := scans, notices := notices
          runoutRaised := t.run.runoutRaised, tailStopped := t.run.tailStopped } := by
  have frame := ruleRaised_frame s p w i
  have chains : (ruleRaised s p w i).chains = s.run.chains := by rw [frame]
  have react' := react.trans (congrArg (fun r : Run => { r with
    chains := s.run.chains.set c y, orders := orders, strikeQueue := queue, lamps := lamps, scans := scans
    notices := notices }) frame).symm
  have motions : (ruleRaised s p w i).motions = s.run.motions := by rw [frame]
  have handoffs : (ruleRaised s p w i).handoffs = s.run.handoffs := by rw [frame]
  have stopped : (ruleRaised s p w i).tailStopped = s.run.tailStopped := by rw [frame]
  have raisedFlags : (ruleRaised s p w i).runoutRaised = s.run.runoutRaised := by rw [frame]
  obtain ⟨raised, tails, acted, kept, flags⟩ := onAirLoss_eq (e := s.env) (c := c) (p := p) (z := z) (r := ruleRaised s p w i)
    (X := { ruleRaised s p w i with
      chains := s.run.chains.set c y, orders := orders, strikeQueue := queue, lamps := lamps, scans := scans
      notices := notices }) single
    (by rw [chains]; exact observed) (by unfold chainState; rw [chains]; exact react')
    (fun held a x port past => by
      rw [chains] at held
      have here := inert held a x port (by
        rw [← past]
        unfold pastRunout
        dsimp only
        rw [motions])
      refine ⟨fun air => here.1 air, fun off => ?_⟩
      dsimp only
      rw [motions, stopped]
      exact here.2 off)
    (fun a x port => by
      refine (done a x port).imp (fun idle => ?_) fun ended => cursorRecord_end ended
      rw [← idle]
      exact scanned_congr motions handoffs a)
  obtain ⟨t, fell, only, run, raisedIn⟩ := exec_ruleFire_loss ha defined fires loss hc
    (isOnAir_of_observed (su := s.setup) hc observed defined) acted (handoffs.trans hq) rfl
  refine ⟨t, fell, ⟨only, raisedIn⟩, fun held => ?_, fun free => ?_, ?_⟩
  · have worked := flags (by rw [chains]; exact held)
    rw [← run] at worked
    exact runoutWorked_of_flags worked motions raisedFlags stopped
  · obtain ⟨same, same'⟩ := kept (by rw [chains]; exact free)
    rw [run]
    exact ⟨same.trans raisedFlags, same'.trans stopped⟩
  · rw [run, frame]

/-- The state derived, in the terms of the claims. -/
theorem holdOver_eq {s : State} {c : Fin 4} {z : Port} (observed : (s.run.chains.get c).observed = some z.input) :
    holdOver s.env c s.run = if (s.run.chains.get c).state = .holding then { s.run.chains.get c with
        hold := none, holdTimer := .idle
        holdSweeps := match (s.run.chains.get c).holdTimer with
          | .running n => n
          | .expired => (s.setup.modes.get c).holdLimit
          | .idle => 0
        state := if ∃ q, portPosition s.setup c z.other = some q ∧ (s.setup.positions.get q).isSome = true
              ∧ ((s.run.motions.get q).motion = .runup ∨ (s.run.motions.get q).motion = .locked)
            then .double else .single }
      else s.run.chains.get c := by
  unfold holdOver
  rw [derivedState_port observed]
  rfl

/-- A switch under way leaves the guard and the tail stop nothing to do but with the flags. -/
theorem switched_inert {s : State} {p : Fin 8} {c : Fin 4} {z : Port} {y : ChainRec} (hc : chainOf s.setup p = some (c, z))
    (defined : (s.setup.positions.get p).isSome = true) (switching : y.state = .switching) (seen : y.observed = some z.input)
    (idle : ∀ q, portPosition s.setup c z.other = some q → pastRunout s.setup s.run c q = true →
      (s.run.motions.get q).motion.running = false ∨ s.run.tailStopped.get q = true
        ∨ y.target = some (z.other.input, .change)) (a : Fin 8) (x : Port) (port : portPosition s.setup c x = some a) :
    RunoutInert s.env c x a { s.run with chains := s.run.chains.set c y } := by
  intro past
  have record : (s.run.chains.set c y).get c = y := by rw [get_set_fin, if_pos rfl]
  refine ⟨fun _ => ?_, fun off => ?_⟩
  · dsimp only
    rw [record, switching]
    exact ⟨nofun, nofun, nofun⟩
  · rcases Port.eq_or_other z x with rfl | rfl
    · obtain rfl := Option.some.inj (port.symm.trans (chainOf_port hc))
      have on : isOnAir s.env.setup { s.run with chains := s.run.chains.set c y } a = true :=
        isOnAir_of_observed (su := s.setup) hc (by dsimp only; rw [record]; exact seen) defined
      exact nomatch on.symm.trans off
    · refine (idle a port past).imp_right (Or.imp_right fun target => ?_)
      unfold isChangeTarget chainState
      dsimp only
      rw [record, switching, target]
      simp

theorem isOnAir_congr {su : Setup} {a b : Run} (observed : ∀ c, (a.chains.get c).observed = (b.chains.get c).observed)
    (p : Fin 8) : isOnAir su a p = isOnAir su b p := by
  unfold isOnAir
  split
  · rw [onAirPosition_congr (observed _)]
  · rfl

theorem roleOf_congr {su : Setup} {a b : Run} (motions : a.motions = b.motions) (lamps : a.lamps = b.lamps)
    (observed : ∀ c, (a.chains.get c).observed = (b.chains.get c).observed) (p : Fin 8) : roleOf su a p = roleOf su b p := by
  unfold roleOf failed motionOf
  rw [motions, lamps]
  split
  · rfl
  · split
    · rfl
    · split
      · rfl
      · rw [onAirPosition_congr (observed _)]

theorem holdOver_observed (e : Env) (c : Fin 4) (r : Run) : (holdOver e c r).observed = (r.chains.get c).observed := by
  unfold holdOver
  split <;> rfl

/-! ### The run the chain reacts in -/

/-- RULE raised, the hold ended, and what was held completed. -/
def lossRun (s : State) (p : Fin 8) (w : Byte) (i : Fin 16) (c : Fin 4) (scans : Vector ScanRec 8) (notices : List Notice) : Run :=
  { s.run with
    slots := (ruleRaised s p w i).slots, counters := (ruleRaised s p w i).counters
    chains := s.run.chains.set c (holdOver s.env c s.run), scans := scans, notices := notices }

section
variable {s : State} {p : Fin 8} {w : Byte} {i : Fin 16} {c : Fin 4} {z : Port} {scans : Vector ScanRec 8}
  {notices : List Notice}

theorem lossRun_record : (lossRun s p w i c scans notices).chains.get c = holdOver s.env c s.run :=
  (get_set_fin ..).trans (if_pos rfl)

theorem lossRun_set (y : ChainRec) : (lossRun s p w i c scans notices).chains.set c y = s.run.chains.set c y :=
  Vector.set_set ..

theorem lossRun_observed (d : Fin 4) :
    ((lossRun s p w i c scans notices).chains.get d).observed = (s.run.chains.get d).observed := by
  unfold lossRun
  dsimp only
  rw [get_set_fin]
  split
  · rename_i same
    subst same
    exact holdOver_observed ..
  · rfl

theorem lossRun_onAir (hc : chainOf s.setup p = some (c, z)) (observed : (s.run.chains.get c).observed = some z.input)
    (defined : (s.setup.positions.get p).isSome = true) :
    onAirPosition s.setup (lossRun s p w i c scans notices) c = some p :=
  onAirPosition_of ((lossRun_observed c).trans observed) (chainOf_port hc) defined

theorem lossRun_next {q : Fin 8} (single : PortsSingle s.setup) (hc : chainOf s.setup p = some (c, z))
    (observed : (s.run.chains.get c).observed = some z.input) (defined : (s.setup.positions.get p).isSome = true)
    (next : IsNext s p q) : nextOf s.setup (lossRun s p w i c scans notices) c = some q :=
  nextOf_standsBy single hc (lossRun_onAir hc observed defined) next

theorem lossRun_none_next (hc : chainOf s.setup p = some (c, z)) (observed : (s.run.chains.get c).observed = some z.input)
    (defined : (s.setup.positions.get p).isSome = true)
    (h : ∀ q, portPosition s.setup c z.other = some q → roleOf s.setup s.run q ≠ .next) :
    nextOf s.setup (lossRun s p w i c scans notices) c = none :=
  nextOf_none hc (lossRun_onAir hc observed defined) fun q port role =>
    h q port ((roleOf_congr (a := lossRun s p w i c scans notices) (b := s.run) rfl rfl lossRun_observed q).symm.trans role)

theorem holdOver_film (observed : (s.run.chains.get c).observed = some z.input)
    (state : ((s.run.chains.get c).state = .single ∨ (s.run.chains.get c).state = .double)
      ∨ (s.run.chains.get c).state = .holding) :
    (holdOver s.env c s.run).state = .single ∨ (holdOver s.env c s.run).state = .double := by
  unfold holdOver
  split
  · exact onFilm_iff.1 (derivedState_onFilm (r := s.run) observed)
  · rename_i free
    exact state.resolve_right free

theorem defined_of_partner {su : Setup} {q : Fin 8} (hc : chainOf su p = some (c, z)) (partner : partnerOf su p = some q) :
    definedPos su q = true := by
  obtain ⟨_, q', _, y, _, hq', _, hy, _⟩ := (pairValid_iff z).1 (pairValid_of_partner hc partner)
  obtain rfl := Option.some.inj (hq'.symm.trans (partner_port hc partner))
  exact Option.isSome_iff_exists.2 ⟨y, hy⟩

/-- The run a switch leaves. -/
def lossSwitched (s : State) (p : Fin 8) (w : Byte) (i : Fin 16) (c : Fin 4) (scans : Vector ScanRec 8) (notices : List Notice)
    (y : ChainRec) (orders : List OrderEntry) (queue : List StrikeEntry) (lamps : Vector LampRec 8) : Run :=
  { s.run with
    slots := (ruleRaised s p w i).slots, counters := (ruleRaised s p w i).counters
    chains := s.run.chains.set c y, orders := orders, strikeQueue := queue, lamps := lamps, scans := scans
    notices := notices }

section
variable {d : ChainDef} {q : Fin 8} {keep : Bool} (single : PortsSingle s.setup) (hc : chainOf s.setup p = some (c, z))
  (hd : s.setup.chains.get c = some d) (observed : (s.run.chains.get c).observed = some z.input)
  (defined : (s.setup.positions.get p).isSome = true)
  (state : ((s.run.chains.get c).state = .single ∨ (s.run.chains.get c).state = .double)
      ∨ (s.run.chains.get c).state = .holding)
  (fallback : (s.setup.modes.get c).fallback = true)
include hc hd observed defined state fallback

theorem loss_ready (single : PortsSingle s.setup) (next : IsNext s p q) (readies : (s.run.lamps.get q).ready = true) :
    reactToLoss s.env c p keep (lossRun s p w i c scans notices) = lossSwitched s p w i c scans notices
      ((holdOver s.env c s.run).switched z.other.input .change (if keep then (holdOver s.env c s.run).holdSweeps else 0))
      (enqueueOrder d.station (.select z.other.input) s.run.orders) s.run.strikeQueue s.run.lamps := by
  refine (reactToLoss_ready (e := s.env) (r := lossRun s p w i c scans notices) (by rw [lossRun_record]; exact holdOver_film observed state) fallback hd
    (lossRun_next single hc observed defined next) (chainOf_of_port single (partner_port hc next.1))
    ((lossRun_observed c).trans observed) readies).trans ?_
  rw [lossRun_record, lossRun_set]
  rfl

theorem loss_lit (single : PortsSingle s.setup) (next : IsNext s p q) (unready : (s.run.lamps.get q).ready = false)
    (lit : (s.run.lamps.get q).lamp ≠ .dark) :
    reactToLoss s.env c p keep (lossRun s p w i c scans notices) = lossSwitched s p w i c scans notices
      ((holdOver s.env c s.run).switched (fallbackInput s.setup c) .fallback
        (if keep then (holdOver s.env c s.run).holdSweeps else 0))
      (enqueueOrder d.station (.select (fallbackInput s.setup c)) s.run.orders) s.run.strikeQueue s.run.lamps := by
  refine (reactToLoss_unready (e := s.env) (r := lossRun s p w i c scans notices) (by rw [lossRun_record]; exact holdOver_film observed state) fallback hd
    (lossRun_next single hc observed defined next) unready).trans ((strikeRequest_lit (by exact lit)).trans ?_)
  rw [lossRun_record, lossRun_set]
  rfl

theorem loss_dark (single : PortsSingle s.setup) (next : IsNext s p q) (unready : (s.run.lamps.get q).ready = false)
    (dark : (s.run.lamps.get q).lamp = .dark) (busy : s.run.gate ≠ .free) :
    reactToLoss s.env c p keep (lossRun s p w i c scans notices) = lossSwitched s p w i c scans notices
      ((holdOver s.env c s.run).switched (fallbackInput s.setup c) .fallback
        (if keep then (holdOver s.env c s.run).holdSweeps else 0))
      (enqueueOrder d.station (.select (fallbackInput s.setup c)) s.run.orders)
      (s.run.strikeQueue ++ [{ position := q, cls := .urgent }])
      (s.run.lamps.set q { s.run.lamps.get q with lamp := .queued }) := by
  refine (reactToLoss_unready (e := s.env) (r := lossRun s p w i c scans notices) (by rw [lossRun_record]; exact holdOver_film observed state) fallback hd
    (lossRun_next single hc observed defined next) unready).trans
    ((strikeRequest_joins (e := s.env) (defined_of_partner hc next.1) (by exact dark) (by exact busy)).trans ?_)
  rw [lossRun_record, lossRun_set]
  rfl

theorem loss_alone (none_next : ∀ q, portPosition s.setup c z.other = some q → roleOf s.setup s.run q ≠ .next) :
    reactToLoss s.env c p keep (lossRun s p w i c scans notices) = lossSwitched s p w i c scans notices
      ((holdOver s.env c s.run).switched (fallbackInput s.setup c) .fallback
        (if keep then (holdOver s.env c s.run).holdSweeps else 0))
      (enqueueOrder d.station (.select (fallbackInput s.setup c)) s.run.orders) s.run.strikeQueue s.run.lamps := by
  refine (reactToLoss_alone (e := s.env) (r := lossRun s p w i c scans notices) (by rw [lossRun_record]; exact holdOver_film observed state) fallback hd
    (lossRun_none_next hc observed defined none_next)).trans ?_
  rw [lossRun_record, lossRun_set]
  rfl

end

end

end Sys2Proof.Machine

namespace Sys2Proof.Proofs

open Sys2Proof.Machine

/-- Settles O60: the hold is ended, then the chain reacts by its state and its NEXT; the runout works the flags alone. -/
theorem onAirLossAnswered : Obligations.OnAirLossAnswered := by
  intro p w i c z d scans notices s ha hq single defined fires fires_i fires_only loss hc hd was observed others own
    onFilm count ended kept raised answers settles select back quietTail
  have members : ∀ j, j ∈ [i] ↔ Machine.ruleFires s.env s.run p w (motionOf s.run p) j = true := fun j => by
    rw [List.mem_singleton]
    exact ⟨fun h => h ▸ (ruleFires_iff (e := s.env) (r := s.run)).2 fires_i,
      fun h => fires_only j ((ruleFires_iff (e := s.env) (r := s.run)).1 h)⟩
  have frame := ruleRaised_frame s p w i
  have begun : lossBegun s.env c (ruleRaised s p w i) = lossRun s p w i c scans notices := by
    refine (congrArg (lossBegun s.env c) frame).trans ?_
    refine lossBegun_eq (e := s.env) (r := { s.run with
      slots := (ruleRaised s p w i).slots, counters := (ruleRaised s p w i).counters }) single hc observed others ?_
    rcases own with own | ⟨runs, _, held, partner, room, _, rest⟩
    · exact .inl own
    · exact .inr ⟨runs, held, partner, room, rest⟩
  have done : ∀ a z, portPosition s.setup c z = some a →
      scanned s.setup s.run a = false ∨ (scans.get a).cursor = listLength s.setup a := by
    intro a y port
    rcases Port.eq_or_other z y with rfl | rfl
    · obtain rfl := Option.some.inj (port.symm.trans (chainOf_port hc))
      rcases own with ⟨idle, _⟩ | ⟨_, _, _, _, _, last, rfl, _⟩
      · exact .inl idle
      · right
        rw [get_set_fin, if_pos rfl]
        exact last
    · exact .inl (others a port)
  have answered := fun {y orders queue lamps} => loss_answered (notices := notices) (y := y) (orders := orders) (queue := queue) (lamps := lamps)
    ha hq single defined members loss hc observed done
  have ended_eq : holdOver s.env c s.run = ended := holdOver_eq observed
  have sweeps : (if chainState s.run c == .holding then (holdOver s.env c s.run).holdSweeps else 0) = kept := by
    by_cases held : (s.run.chains.get c).state = .holding
    · have count_eq : (holdOver s.env c s.run).holdSweeps = count := by
        unfold holdOver
        rw [if_pos held]
        rfl
      exact (if_pos (beq_iff_eq.2 held)).trans (count_eq.trans (if_pos held).symm)
    · exact (if_neg (fun h => held (beq_iff_eq.1 h))).trans (if_neg held).symm
  rw [← ended_eq, ← sweeps]
  have over_observed := (holdOver_observed s.env c s.run).trans observed
  have falls : ∀ {queue lamps}, quietTail →
      reactToLoss s.env c p (chainState s.run c == .holding) (lossRun s p w i c scans notices) =
        lossSwitched s p w i c scans notices ((holdOver s.env c s.run).switched back .fallback
          (if chainState s.run c == .holding then (holdOver s.env c s.run).holdSweeps else 0)) (select back) queue lamps →
      answers ((holdOver s.env c s.run).switched back .fallback
        (if chainState s.run c == .holding then (holdOver s.env c s.run).holdSweeps else 0)) (select back) queue lamps :=
    fun tail react => answered ((congrArg _ begun).trans react) fun held => switched_inert hc defined rfl over_observed
      fun q port past => (tail held q port past).imp_right .inl
  refine ⟨fun off free => ?_, fun state => ⟨fun fallback => ⟨fun on => ?_, fun held still => ?_⟩, fun fallback =>
    ⟨fun q next readies => ?_, fun q tail next unready lit => falls tail (loss_lit hc hd observed defined state fallback single next unready lit),
      fun q tail next unready dark busy => falls tail (loss_dark hc hd observed defined state fallback single next unready dark busy),
      fun tail none_next => falls tail (loss_alone hc hd observed defined state fallback none_next)⟩⟩⟩
  · refine answered ?_ fun held => absurd held free
    have unheld : holdOver s.env c s.run = s.run.chains.get c := if_neg free
    rw [begun, reactToLoss_off (.inl (by rw [lossRun_record, unheld]; exact off))]
    unfold lossRun
    rw [unheld]
  · have free : (s.run.chains.get c).state ≠ .holding := by
      rcases on with h | h <;> exact fun g => nomatch h.symm.trans g
    refine answered ?_ fun held => absurd held free
    have unheld : holdOver s.env c s.run = s.run.chains.get c := if_neg free
    rw [begun, reactToLoss_off (.inr fallback)]
    unfold lossRun
    rw [unheld]
  · obtain ⟨t, fell, raised, _, _, run⟩ := answered (y := holdOver s.env c s.run) (orders := s.run.orders)
      (queue := s.run.strikeQueue) (lamps := s.run.lamps)
      ((congrArg _ begun).trans (reactToLoss_off (.inr fallback)))
      fun _ a y port => .of_still (still y a port)
    exact ⟨t, fell, raised, run⟩
  · exact answered ((congrArg _ begun).trans (loss_ready hc hd observed defined state fallback single next readies))
      fun _ => switched_inert hc defined rfl over_observed fun _ _ _ => .inr (.inr rfl)

end Sys2Proof.Proofs
end

section
/-! PROOFS. What the Chain Unit's own operations leave of a run (for O28 to O34, O40, O46, O58). -/

namespace Sys2Proof.Machine

/-- The chain neither shows film nor holds, and no SELECT to a CHANGE waits: no reel's walk changes its record. -/
def ChainRec.Resting (x : ChainRec) : Prop :=
  (x.state ≠ .single ∧ x.state ≠ .double ∧ x.state ≠ .holding)
    ∧ (x.state = .switching → x.select = .queued → ∀ i, x.target ≠ some (i, .change))

/-- No defined position and no defined chain has the station. -/
def Unnamed (su : Setup) (st : Station) : Prop :=
  (∀ p, positionStation su p ≠ some st) ∧ ∀ c, chainStation su c ≠ some st

/-- No order waits for the station. -/
def NoOrderFor (st : Station) (r : Run) : Prop := ∀ y ∈ r.orders, y.station ≠ st

/-- Neither runout flag of the position stands. -/
def Flagless (r : Run) (p : Fin 8) : Prop := r.runoutRaised.get p = false ∧ r.tailStopped.get p = false

/-- The position does not run, and its chain, if it has one, rests: an evaluation of its runout can only clear. -/
def Idle (e : Env) (r : Run) (p : Fin 8) : Prop :=
  (r.motions.get p).motion.running = false ∧ ∀ c z, chainOf e.setup p = some (c, z) → (r.chains.get c).Resting

/-- No position of the chain is past runout. -/
def Unpast (e : Env) (r : Run) (d : Fin 4) : Prop :=
  ∀ p z, chainOf e.setup p = some (d, z) → pastRunout e.setup r d p = false

/-- The Chain Unit's acting on chain c cannot reach the record of chain d. -/
def Apart (e : Env) (c : Fin 4) (r : Run) (d : Fin 4) : Prop := (r.chains.get d).Resting ∨ d ≠ c ∧ Unpast e r d

/-- The Chain Unit acting on chain c: chain records, orders, raises and runout flags, and nothing else. -/
structure ChainSide (e : Env) (c : Fin 4) (r0 r : Run) : Prop where
  frame : r = { r0 with chains := r.chains, orders := r.orders, slots := r.slots
                        runoutRaised := r.runoutRaised, tailStopped := r.tailStopped }
  apart : ∀ d, Apart e c r0 d → r.chains.get d = r0.chains.get d
  orders : ∀ st, Unnamed e.setup st → NoOrderFor st r0 → NoOrderFor st r
  flags : ∀ p, Idle e r0 p → Flagless r0 p → Flagless r p

theorem ChainRec.Resting.not_film {x : ChainRec} (h : x.Resting) : x.state.onFilm = false := by
  obtain ⟨⟨single, double, _⟩, _⟩ := h
  cases hs : x.state with
  | single => exact absurd hs single
  | double => exact absurd hs double
  | holding | switching | dark | fallback | unknown => rfl

theorem awake_of_film {x : ChainRec} (h : x.state.onFilm = true) : ¬ x.Resting := fun g => nomatch g.not_film.symm.trans h

theorem awake_of_holding {x : ChainRec} (h : x.state = .holding) : ¬ x.Resting := fun ⟨⟨_, _, g⟩, _⟩ => g h

/-- A station that an order goes to is named. -/
theorem Unnamed.position {su : Setup} {st : Station} (h : Unnamed su st) {p : Fin 8} {d : PosDef}
    (hd : su.positions.get p = some d) : d.station ≠ st := fun same => h.1 p (by
  unfold positionStation
  rw [hd, ← same]
  rfl)

theorem Unnamed.chain {su : Setup} {st : Station} (h : Unnamed su st) {c : Fin 4} {d : ChainDef}
    (hd : su.chains.get c = some d) : d.station ≠ st := fun same => h.2 c (by
  unfold chainStation
  rw [hd, ← same]
  rfl)

theorem station_of_mem_enqueueOrder {st : Station} {o : Order} {q : List OrderEntry} {y : OrderEntry}
    (h : y ∈ enqueueOrder st o q) : y ∈ q ∨ y.station = st := by
  unfold enqueueOrder at h
  split at h
  · obtain ⟨x, hx, rfl⟩ := List.mem_map.1 h
    split
    · exact .inr rfl
    · exact .inl hx
  · exact (List.mem_append.1 h).imp_right fun h => by rw [List.mem_singleton.1 h]

theorem pastRunout_congr {su : Setup} {a b : Run} (h : a.motions = b.motions) (c : Fin 4) (p : Fin 8) :
    pastRunout su a c p = pastRunout su b c p := by
  unfold pastRunout
  rw [h]

section
variable {e : Env} {c : Fin 4} {r0 r r' : Run}

theorem not_apart (awake : ¬ (r.chains.get c).Resting) : ¬ Apart e c r c := fun h => h.elim awake fun g => g.1 rfl

theorem ChainSide.refl (r : Run) : ChainSide e c r r := ⟨rfl, fun _ _ => rfl, fun _ _ h => h, fun _ _ h => h⟩

theorem ChainSide.motions (h : ChainSide e c r0 r) : r.motions = r0.motions := by rw [h.frame]
theorem ChainSide.scans (h : ChainSide e c r0 r) : r.scans = r0.scans := by rw [h.frame]
theorem ChainSide.lamps (h : ChainSide e c r0 r) : r.lamps = r0.lamps := by rw [h.frame]
theorem ChainSide.notices (h : ChainSide e c r0 r) : r.notices = r0.notices := by rw [h.frame]
theorem ChainSide.handoffs (h : ChainSide e c r0 r) : r.handoffs = r0.handoffs := by rw [h.frame]
theorem ChainSide.counters (h : ChainSide e c r0 r) : r.counters = r0.counters := by rw [h.frame]
theorem ChainSide.queue (h : ChainSide e c r0 r) : r.strikeQueue = r0.strikeQueue := by rw [h.frame]

theorem ChainSide.idle (h : ChainSide e c r0 r) {p : Fin 8} (g : Idle e r0 p) : Idle e r p := by
  obtain ⟨stands, rests⟩ := g
  refine ⟨by rw [h.motions]; exact stands, fun d z hd => ?_⟩
  rw [h.apart d (.inl (rests d z hd))]
  exact rests d z hd

theorem ChainSide.stays_apart (h : ChainSide e c r0 r) {d : Fin 4} (g : Apart e c r0 d) : Apart e c r d := by
  refine g.imp (fun g => ?_) (And.imp_right fun g p z hp => ?_)
  · rw [h.apart d (.inl g)]; exact g
  · rw [pastRunout_congr h.motions]; exact g p z hp

theorem ChainSide.trans (h : ChainSide e c r0 r) (g : ChainSide e c r r') : ChainSide e c r0 r' where
  frame := by rw [g.frame, h.frame]
  apart d k := (g.apart d (h.stays_apart k)).trans (h.apart d k)
  orders st hs k := g.orders st hs (h.orders st hs k)
  flags p hp k := g.flags p (h.idle hp) (h.flags p hp k)

/-! ### Single updates -/

/-- A chain within reach may change its record. -/
theorem ChainSide.modChain {d : Fin 4} (reach : ¬ Apart e c r0 d) (f : ChainRec → ChainRec) (h : ChainSide e c r0 r) :
    ChainSide e c r0 (r.modChain d f) where
  frame := by rw [h.frame]; rfl
  apart x k := by rw [Run.modChain_get, if_neg fun (same : d = x) => reach (same ▸ k)]; exact h.apart x k
  orders := h.orders
  flags := h.flags

theorem ChainSide.raise (k : Fin 82) (v : Option Int) (x : Option (Fin 16 × Severity)) (h : ChainSide e c r0 r) :
    ChainSide e c r0 (Machine.raise e k v x r) := by
  rw [raise_frame]
  exact h.trans ⟨rfl, fun _ _ => rfl, fun _ _ h => h, fun _ _ h => h⟩

theorem ChainSide.ordered {q : List OrderEntry} (hq : ∀ y ∈ q, y ∈ r.orders ∨ ¬ Unnamed e.setup y.station)
    (h : ChainSide e c r0 r) : ChainSide e c r0 { r with orders := q } :=
  h.trans ⟨rfl, fun _ _ => rfl,
    fun _ hs k y hy same => (hq y hy).elim (fun g => k y g same) fun g => g (same ▸ hs), fun _ _ h => h⟩

theorem ChainSide.queueFor (p : Fin 8) (o : Order) (h : ChainSide e c r0 r) : ChainSide e c r0 (Machine.queueFor e p o r) := by
  unfold Machine.queueFor
  split
  · rename_i d hd
    exact h.ordered fun y hy => (station_of_mem_enqueueOrder hy).imp_right fun same hs => hs.position hd same.symm
  · exact h

theorem ChainSide.queueForChain (d : Fin 4) (o : Order) (h : ChainSide e c r0 r) :
    ChainSide e c r0 (Machine.queueForChain e d o r) := by
  unfold Machine.queueForChain
  split
  · rename_i x hx
    exact h.ordered fun y hy => (station_of_mem_enqueueOrder hy).imp_right fun same hs => hs.chain hx same.symm
  · exact h

theorem ChainSide.clearFlags (p : Fin 8) (h : ChainSide e c r0 r) :
    ChainSide e c r0 ((r.setRunoutRaised p false).setTailStopped p false) := by
  refine h.trans ⟨rfl, fun _ _ => rfl, fun _ _ h => h, fun a _ k => ?_⟩
  obtain ⟨raised, stopped⟩ := k
  refine ⟨?_, ?_⟩
  · refine (get_set_fin ..).trans ?_
    split
    · rfl
    · exact raised
  · refine (get_set_fin ..).trans ?_
    split
    · rfl
    · exact stopped

theorem ChainSide.setRaised {p : Fin 8} (busy : ¬ Idle e r0 p) (h : ChainSide e c r0 r) :
    ChainSide e c r0 (r.setRunoutRaised p true) where
  frame := by rw [h.frame]; rfl
  apart := h.apart
  orders := h.orders
  flags a ha k := by
    obtain ⟨raised, stopped⟩ := h.flags a ha k
    exact ⟨(get_set_fin ..).trans ((if_neg fun (same : p = a) => busy (same ▸ ha)).trans raised), stopped⟩

theorem ChainSide.setStopped {p : Fin 8} (busy : ¬ Idle e r0 p) (h : ChainSide e c r0 r) :
    ChainSide e c r0 (r.setTailStopped p true) where
  frame := by rw [h.frame]; rfl
  apart := h.apart
  orders := h.orders
  flags a ha k := by
    obtain ⟨raised, stopped⟩ := h.flags a ha k
    exact ⟨raised, (get_set_fin ..).trans ((if_neg fun (same : p = a) => busy (same ▸ ha)).trans stopped)⟩

/-! ### Switching and runout (R104, R111, R119 to R121) -/

theorem derive_side (awake : ¬ (r0.chains.get c).Resting) (h : ChainSide e c r0 r) : ChainSide e c r0 (derive e c r) :=
  h.modChain (not_apart awake) _

theorem switchTo_side {d : Fin 4} (reach : ¬ Apart e c r0 d) (i : Input) (k : SwitchKind) (keep : Bool)
    (h : ChainSide e c r0 r) : ChainSide e c r0 (switchTo e d i k keep r) :=
  (h.queueForChain d _).modChain reach _

theorem raiseRunout_side {p : Fin 8} (busy : ¬ Idle e r0 p) (d : Fin 4) (h : ChainSide e c r0 r) :
    ChainSide e c r0 (raiseRunout e d p r) := by
  unfold raiseRunout
  split
  · exact h
  · exact (h.raise _ _ _).setRaised busy

theorem guardRunout_side {p : Fin 8} {d : Fin 4} {z : Port} (hd : chainOf e.setup p = some (d, z))
    (past : pastRunout e.setup r d p = true) (keep : Bool) : ChainSide e c r (guardRunout e keep d p r) := by
  have film : (r.chains.get d).state.onFilm = true → ChainSide e c r
      (if (e.setup.modes.get d).fallback then switchToFallback e d keep (raiseRunout e d p r) else raiseRunout e d p r) := by
    intro film
    have raised : ChainSide e c r (raiseRunout e d p r) :=
      raiseRunout_side (fun idle => awake_of_film film (idle.2 d z hd)) d (.refl r)
    split
    · exact switchTo_side (fun h => h.elim (awake_of_film film) fun h => nomatch (h.2 p z hd).symm.trans past) _ _ _ raised
    · exact raised
  unfold guardRunout chainState
  cases hs : (r.chains.get d).state with
  | single | double => exact film (by rw [hs]; rfl)
  | holding => exact raiseRunout_side (fun idle => awake_of_holding hs (idle.2 d z hd)) d (.refl r)
  | switching | dark | fallback | unknown => exact .refl r

theorem tailStop_side (d : Fin 4) (x : Port) (p : Fin 8) (r : Run) : ChainSide e c r (tailStop e d x p r) := by
  unfold tailStop
  split
  · rename_i runs
    refine (((ChainSide.refl r).queueFor p _).queueFor p _).setStopped fun idle => ?_
    simp only [motionOf, idle.1, Bool.false_and, Bool.false_eq_true] at runs
  · exact .refl r

/-- R119: one port position's runout. -/
theorem evaluateRunout_side (keep : Bool) (p : Fin 8) (h : ChainSide e c r0 r) :
    ChainSide e c r0 (evaluateRunout e keep p r) := by
  unfold evaluateRunout
  split
  · exact h
  · rename_i d z hd
    split
    · exact h.clearFlags p
    · rename_i past
      rw [Bool.not_eq_true', Bool.not_eq_false] at past
      split
      · exact h.trans (guardRunout_side hd past keep)
      · exact h.trans (tailStop_side d z p r)

theorem foldl_side {α : Type} {f : Run → α → Run} (hf : ∀ r a, ChainSide e c r0 r → ChainSide e c r0 (f r a)) (l : List α)
    (h : ChainSide e c r0 r) : ChainSide e c r0 (l.foldl f r) := by
  induction l generalizing r with
  | nil => exact h
  | cons a l ih => exact ih (hf r a h)

theorem evaluatePorts_side (keep : Bool) (d : Fin 4) (h : ChainSide e c r0 r) : ChainSide e c r0 (evaluatePorts e keep d r) :=
  foldl_side (fun _ p h => evaluateRunout_side keep p h) _ h

theorem evaluateReturn_side (keep : Bool) (d : Fin 4) (back : Run) (h : ChainSide e c r0 r) :
    ChainSide e c r0 (evaluateReturn e keep d back r) := by
  unfold evaluateReturn
  split
  · exact evaluatePorts_side _ _ h
  · exact h

/-! ### Changeovers and holds (R107 to R111) -/

theorem holdExpiryRule_side (awake : ¬ (r0.chains.get c).Resting) (p : Fin 8) (k : HoldKind) (h : ChainSide e c r0 r) :
    ChainSide e c r0 (holdExpiryRule e c p k r) := by
  have raised : ChainSide e c r0 (raiseChain e (slotChangeFailed c) r) := h.raise _ _ _
  unfold holdExpiryRule
  dsimp only
  split
  · exact derive_side awake raised
  · split
    · exact switchTo_side (not_apart awake) _ _ _ raised
    · exact evaluateReturn_side _ _ _ (derive_side awake raised)

theorem changeover_side (p q : Fin 8) (o : ChangeoverFrom) (keep : Bool) (h : ChainSide e c r0 r) :
    ChainSide e c r0 (changeover e c p q o keep r) := by
  refine h.trans ?_
  unfold changeover
  split
  · exact .refl r
  · split
    · rename_i asked
      have awake : ¬ (r.chains.get c).Resting := awake_of_film (by
        simp only [Bool.and_eq_true] at asked
        exact asked.1.2)
      split
      · exact switchTo_side (not_apart awake) _ _ _ (.refl r)
      · split
        · exact holdExpiryRule_side awake _ _ (.refl r)
        · exact .refl r
    · exact .refl r

theorem plannedCaption_side (h : ChainSide e c r0 r) : ChainSide e c r0 (plannedCaption e c r) := by
  refine h.trans ?_
  unfold plannedCaption
  split
  · rename_i film
    exact switchTo_side (not_apart (awake_of_film film)) _ _ _ (.refl r)
  · exact .refl r

theorem clearHold_side (awake : ¬ (r0.chains.get c).Resting) (h : ChainSide e c r0 r) : ChainSide e c r0 (clearHold e c r) :=
  h.modChain (not_apart awake) _

theorem endHolding_side (awake : ¬ (r0.chains.get c).Resting) (p : Fin 8) (k : HoldKind) (how : HoldEnd)
    (h : ChainSide e c r0 r) : ChainSide e c r0 (endHolding e c p k how r) := by
  have derived : ChainSide e c r0 (derive e c (clearHold e c r)) := derive_side awake (clearHold_side awake h)
  unfold endHolding
  cases how
  case late q => exact evaluateReturn_side _ _ _ (changeover_side _ _ _ _ derived)
  case heldOut | fault => exact holdExpiryRule_side awake _ _ (clearHold_side awake h)
  all_goals exact evaluateReturn_side _ _ _ derived

theorem holdEnd_side (p : Fin 8) (how : HoldEnd) (h : ChainSide e c r0 r) : ChainSide e c r0 (holdEnd e c p how r) := by
  refine h.trans ?_
  unfold holdEnd
  split
  · rename_i holding _
    exact endHolding_side (awake_of_holding holding) _ _ _ (.refl r)
  · exact changeover_side _ _ _ _ (.refl r)
  · exact .refl r

theorem holdFault_side (p : Fin 8) (k : HoldKind) (h : ChainSide e c r0 r) : ChainSide e c r0 (holdFault e c p k r) := by
  refine h.trans ?_
  unfold holdFault
  split
  · rename_i film
    exact holdExpiryRule_side (awake_of_film film) _ _ ((ChainSide.refl r).modChain (not_apart (awake_of_film film)) _)
  · exact .refl r

/-- R96: what a hold dropped with its scanning record leaves. -/
theorem endScanHold_side (p : Fin 8) (f : ScanRec → ScanRec) (r : Run) :
    ∃ c, ChainSide e c (r.modScan p f) (endScanHold e p f r) := by
  unfold endScanHold
  dsimp only
  split
  · exact ⟨_, holdEnd_side p .noNotice (.refl _)⟩
  · exact ⟨0, .refl _⟩

end

end Sys2Proof.Machine
end

section
/-! PROOFS. MAP PAGE and RESTART CUES (O29). -/

namespace Sys2Proof.Machine

/-! ### A request the blocks act on, with nothing handed on -/

/-- A request answered DONE whose blocks hand nothing on: the REPLY leaves, and the run is what the blocks made. -/
theorem coded_acted {s : State} (ha : s.acting) {m : Payload} {n : Nat} {tag : Byte} {su : Setup} {f : Env → Run → Run}
    {r : Run} (answered : answerManage m s = answerDone data10 ({ s with setup := su }.act f))
    (acted : f { setup := su, sweep := s.port.sweep } s.run = r) (silent : r.handoffs = [])
    (code : m[0].toNat = n := by rfl) (tagged : m[1] = tag := by rfl) (owned : 1 ≤ n ∧ n ≤ 24 := by decide) :
    ∃ t, request m s = .next t
      ∧ t.port = { s.port with
          loopOut := some (s.replyCell n tag 0 (Vector.replicate 10 0)), contact := t.port.contact }
      ∧ t.contactRight ∧ t.setup = su ∧ t.pending = s.pending ∧ t.run = r := by
  obtain ⟨t, next, port, right, setup, pending, run⟩ := coded_answered (u := { s with setup := su }.act f) ha answered rfl code
    tagged owned
  refine ⟨t, next, port, right, setup, pending, ?_⟩
  rw [run]
  show drain _ (f _ s.run) = r
  exact (congrArg (drain _) acted).trans (drain_quiet silent)

section
variable {e : Env} {p q : Fin 8} {f : ScanRec → ScanRec} {r : Run}

theorem endScanHold_scan : (endScanHold e p f r).scans.get p = f (r.scans.get p) := by
  obtain ⟨c, side⟩ := endScanHold_side (e := e) p f r
  rw [side.scans, Run.modScan_get, if_pos rfl]

theorem endScanHold_scan_other (h : q ≠ p) : (endScanHold e p f r).scans.get q = r.scans.get q := by
  obtain ⟨c, side⟩ := endScanHold_side (e := e) p f r
  rw [side.scans, Run.modScan_get, if_neg (Ne.symm h)]

/-- R96: a hold dropped with its record touches no motion record, no lamp, no notice, and hands nothing on. -/
theorem endScanHold_others : (endScanHold e p f r).motions = r.motions ∧ (endScanHold e p f r).lamps = r.lamps
    ∧ (endScanHold e p f r).notices = r.notices ∧ (endScanHold e p f r).handoffs = r.handoffs := by
  obtain ⟨c, side⟩ := endScanHold_side (e := e) p f r
  exact ⟨side.motions, side.lamps, side.notices, side.handoffs⟩

end

/-! ### MAP PAGE and RESTART CUES (R71, R72, R77) -/

theorem readPage_of {b : Byte} {g : Option (Fin 32)} (named : ∀ n, g = some n → b.toNat = n.val) (absent : g = none → b = 255) :
    readPage b = some g := by
  unfold readPage
  cases g with
  | none => rw [if_pos (absent rfl)]
  | some n =>
    have page := named n rfl
    rw [if_neg fun same => by subst same; exact absurd page (by have := n.isLt; simp; omega), indexOf_eq_some.2 page]
    rfl

theorem readPage_eq_some {b : Byte} {g : Option (Fin 32)} (h : readPage b = some g) :
    b = 255 ∧ g = none ∨ b ≠ 255 ∧ ∃ n, g = some n ∧ b.toNat = n.val := by
  unfold readPage at h
  split at h
  · rename_i absent
    exact .inl ⟨absent, (Option.some.inj h).symm⟩
  · rename_i named
    obtain ⟨n, index, rfl⟩ := Option.map_eq_some_iff.1 h
    exact .inr ⟨named, n, rfl, indexOf_eq_some.1 index⟩

/-- R71: MAP PAGE of fields in range. -/
theorem reqMapPage_in_range {position slot page : Byte} {p : Fin 8} {k : Fin 4} {g : Option (Fin 32)} (s : State)
    (hp : position.toNat = p.val) (hk : slot.toNat = k.val) (hg : readPage page = some g)
    (defined : ∀ n, g = some n → (s.setup.positions.get p).isSome = true) :
    reqMapPage position slot page s =
      if reelLocked s.run p then refuse .locked s
      else if g.any (pageElsewhere s.setup p k) then refuse .conflict s
      else answerDone data10 ({ s with setup := setSlot s.setup p k g }.act (remapped p)) := by
  have inside : (g.isSome && !definedPos s.setup p) = false := by
    unfold definedPos
    cases g with
    | none => rfl
    | some n => rw [defined n rfl]; rfl
  unfold reqMapPage
  rw [indexOf_eq_some.2 hp, indexOf_eq_some.2 hk, hg]
  dsimp only
  rw [inside, if_neg (Bool.not_eq_true _ ▸ rfl)]

/-- R71: a field out of range, or a page for an undefined position. -/
theorem reqMapPage_range {position slot page : Byte} {s : State}
    (h : 7 < position.toNat ∨ 3 < slot.toNat ∨ 31 < page.toNat ∧ page ≠ 255
      ∨ page ≠ 255 ∧ ∃ p : Fin 8, position.toNat = p.val ∧ s.setup.positions.get p = none) :
    reqMapPage position slot page s = refuse .range s := by
  unfold reqMapPage
  split
  · rename_i p k g hp hk hg
    rw [indexOf_eq_some] at hp hk
    refine if_pos ?_
    unfold definedPos
    rcases readPage_eq_some hg with ⟨absent, -⟩ | ⟨named, n, rfl, page⟩
    · rcases h with h | h | ⟨-, h⟩ | ⟨h, -⟩
      · omega
      · omega
      · exact absurd absent h
      · exact absurd absent h
    · rcases h with h | h | ⟨h, -⟩ | ⟨-, a, ha, undefined⟩
      · omega
      · omega
      · omega
      · have same : a = p := Fin.ext (ha.symm.trans hp)
        subst same
        rw [undefined]
        rfl
  · rfl

/-- R71: the page stands in another slot. -/
theorem pageElsewhere_iff {su : Setup} {p : Fin 8} {k : Fin 4} {n : Fin 32} : pageElsewhere su p k n = true ↔
    ∃ (q : Fin 8) (j : Fin 4), (su.reels.get q).slots.get j = some n ∧ ¬ (q = p ∧ j = k) := by
  unfold pageElsewhere
  constructor
  · intro h
    obtain ⟨q, -, h⟩ := List.any_eq_true.1 h
    obtain ⟨j, -, h⟩ := List.any_eq_true.1 h
    simp only [Bool.and_eq_true, beq_iff_eq, Bool.not_eq_true', Bool.and_eq_false_iff, beq_eq_false_iff_ne] at h
    exact ⟨q, j, h.1, fun ⟨a, b⟩ => h.2.elim (· a) (· b)⟩
  · rintro ⟨q, j, held, other⟩
    refine List.any_eq_true.2 ⟨q, mem_allPositions q, List.any_eq_true.2 ⟨j, mem_allChains j, ?_⟩⟩
    simp only [Bool.and_eq_true, beq_iff_eq, Bool.not_eq_true', Bool.and_eq_false_iff, beq_eq_false_iff_ne]
    exact ⟨held, Classical.not_and_iff_not_or_not.1 other⟩

theorem reqRestartCues_at {position : Byte} {p : Fin 8} (hp : position.toNat = p.val) (s : State) :
    reqRestartCues position s =
      if !(motionOf s.run p).atRest then refuse .locked s else answerDone data10 (s.act (remapped p)) := by
  unfold reqRestartCues
  rw [indexOf_eq_some.2 hp]

theorem atRest_iff {m : Motion} : m.atRest = true ↔ m = .stopped ∨ m = .unreported := by
  cases m <;> simp [Motion.atRest]

/-- R72, R77: the reel restarted from its first record. -/
theorem remapped_ends {s : State} (ha : s.acting) (hq : s.quiet) {m : Payload} {n : Nat} {tag : Byte} {su : Setup}
    {p : Fin 8} (answered : answerManage m s = answerDone data10 ({ s with setup := su }.act (remapped p)))
    (written : Written s (answerManage m s).state)
    (code : m[0].toNat = n := by rfl) (tagged : m[1] = tag := by rfl) (owned : 1 ≤ n ∧ n ≤ 24 := by decide) :
    ∃ t, request m s = .next t
      ∧ t.port.loopOut = some (s.replyCell n tag 0 (Vector.replicate 10 0)) ∧ t.setup = su
      ∧ t.run.scans.get p = { s.run.scans.get p with
          cursor := 0, marks := 0, hold := .none, partnerRan := false, met := none }
      ∧ (∀ q, q ≠ p → t.run.scans.get q = s.run.scans.get q)
      ∧ t.run.motions = s.run.motions ∧ t.run.lamps = s.run.lamps ∧ t.run.notices = s.run.notices
      ∧ LadderKept s t := by
  obtain ⟨motions, lamps, notices, handoffs⟩ := endScanHold_others (e := { setup := su, sweep := s.port.sweep }) (p := p)
    (f := ScanRec.placed 0) (r := s.run)
  obtain ⟨t, next, port, _, setup, _, run⟩ := coded_acted ha answered rfl (handoffs.trans hq) code tagged owned
  refine ⟨t, next, by rw [port], setup, ?_, fun q hne => ?_, ?_, ?_, ?_, request_ladderKept next written⟩ <;> rw [run]
  · exact endScanHold_scan
  · exact endScanHold_scan_other hne
  · exact motions
  · exact lamps
  · exact notices

end Sys2Proof.Machine

namespace Sys2Proof.Proofs

open Sys2Proof.Machine

/-- Settles O29: the fields are read in the order of R71, and the reel is restarted with whatever it held dropped. -/
theorem reelsMappedAndRestarted : Obligations.ReelsMappedAndRestarted := by
  intro tag position slot page s ha hr hq ends
  refine ⟨fun bad => coded_refused (m := payload13 9 tag position slot page) ha hr (reqMapPage_range bad),
    fun p k g hp hk named absent => ?_, fun above => ?_, fun p hp => ⟨fun moving => ?_, fun rests => ?_⟩⟩
  · have read := reqMapPage_in_range s hp hk (readPage_of (fun n h => (named n h).1) absent) fun n h => (named n h).2
    intro taken
    have elsewhere : g.any (pageElsewhere s.setup p k) = true ↔ taken := by
      cases g with
      | none => exact ⟨nofun, fun ⟨_, _, _, h, _⟩ => nomatch h⟩
      | some n =>
        refine pageElsewhere_iff.trans ⟨fun ⟨q, j, h⟩ => ⟨q, j, n, rfl, h⟩, fun ⟨q, j, n', h, other⟩ => ?_⟩
        obtain rfl := Option.some.inj h
        exact ⟨q, j, other⟩
    refine ⟨fun moves => ?_, fun still held => ?_, fun still free => ?_⟩
    · exact coded_refused (m := payload13 9 tag position slot page) ha hr (read.trans (if_pos moves))
    · exact coded_refused (m := payload13 9 tag position slot page) ha hr
        (read.trans ((if_neg (Bool.eq_false_iff.1 still)).trans (if_pos (elsewhere.2 held))))
    · have done := read.trans ((if_neg (Bool.eq_false_iff.1 still)).trans (if_neg fun h => free (elsewhere.1 h)))
      exact remapped_ends (m := payload13 9 tag position slot page) ha hq done (reqMapPage_written position slot page s)
  · have refused : reqRestartCues position s = refuse .range s := by
      unfold reqRestartCues
      rw [indexOf_eq_none.2 above]
    exact coded_refused (m := payload13 13 tag position) ha hr refused
  · exact coded_refused (m := payload13 13 tag position) ha hr ((reqRestartCues_at hp s).trans (if_pos (by
      rw [Bool.not_eq_true', ← Bool.not_eq_true, atRest_iff]
      exact fun h => h.elim moving.1 moving.2)))
  · have done := (reqRestartCues_at hp s).trans (if_neg (by
      rw [Bool.not_eq_true', ← Bool.not_eq_true, Classical.not_not]
      exact atRest_iff.2 rests))
    exact remapped_ends (m := payload13 13 tag position) (su := s.setup) ha hq done
      ⟨s.setup, .same, reqRestartCues_undisturbed position s⟩

end Sys2Proof.Proofs
end

section
/-! PROOFS. LOAD CUE and CLEAR PAGE (O28), and the end of a hold that leaves the state derived. -/

namespace Sys2Proof.Machine

/-! ### A hold's end that derives the state (R104, R109) -/

/-- R104: the state that the observed selection derives. -/
theorem derivedState_eq {s : State} {c : Fin 4} {i : Input} {r : Run} (observed : (r.chains.get c).observed = some i)
    (motions : r.motions = s.run.motions) : derivedState s.setup r c = StateFrom s c i := by
  unfold StateFrom
  cases hz : i.port with
  | none =>
    unfold derivedState
    rw [observed]
    dsimp only
    rw [hz]
  | some z =>
    rw [Input.port_eq_some.1 hz] at observed
    rw [derivedState_port observed, motions]

/-- The ends of a hold that leave the chain in the state derived (R109). -/
def HoldEnd.Derives : HoldEnd → Prop
  | .done | .suppressed | .noNotice | .takenByDesk => True
  | .late _ | .heldOut | .fault => False

section
variable {e : Env} {c : Fin 4} {r : Run}

/-- R119: the evaluation at a return, with no port position past runout. -/
theorem evaluateReturn_still {keep : Bool} {back : Run} (single : PortsSingle e.setup)
    (still : ∀ z a, portPosition e.setup c z = some a → pastRunout e.setup r c a = false) :
    ∃ raised stopped, evaluateReturn e keep c back r = { r with runoutRaised := raised, tailStopped := stopped } := by
  unfold evaluateReturn
  split
  · have flags := evaluatePorts_flags (c := c) (r := r) (keep := keep) single
      fun a z port => RunoutInert.of_still (still z a port)
    exact ⟨_, _, flags.frame⟩
  · exact ⟨_, _, rfl⟩

/-- R109: the hold ended, hold sweeps taking the timer's count, and the state derived. -/
theorem holdEnd_derives {p : Fin 8} {how : HoldEnd} {m : Fin 8 × HoldKind} (derives : how.Derives) (single : PortsSingle e.setup)
    (still : ∀ z a, portPosition e.setup c z = some a → pastRunout e.setup r c a = false)
    (holding : (r.chains.get c).state = .holding) (holds : (r.chains.get c).hold = some m) :
    ∃ raised stopped, holdEnd e c p how r = { r with
      chains := r.chains.set c ((r.chains.get c).unheld (e.setup.modes.get c).holdLimit (derivedState e.setup r c))
      runoutRaised := raised, tailStopped := stopped } := by
  have ended : holdEnd e c p how r = evaluateReturn e true c (derive e c (clearHold e c r)) (derive e c (clearHold e c r)) := by
    unfold holdEnd chainState
    rw [holding, holds]
    cases how with
    | late _ | heldOut | fault => exact absurd derives id
    | done | suppressed | noNotice | takenByDesk => rfl
  rw [ended]
  have back := derive_clearHold (e := e) (c := c) (r := r)
  rw [back]
  exact evaluateReturn_still single fun z a port => (pastRunout_congr rfl c a).trans (still z a port)

end

/-! ### Where a page is mapped (R70) -/

theorem pageMapping_held {su : Setup} {g : Fin 32} {p : Fin 8} {k : Fin 4} (h : pageMapping su g = some (p, k)) :
    (su.reels.get p).slots.get k = some g := by
  unfold pageMapping at h
  obtain ⟨q, -, found⟩ := List.exists_of_findSome?_eq_some h
  obtain ⟨j, held, same⟩ := Option.map_eq_some_iff.1 found
  obtain ⟨rfl, rfl⟩ := Prod.mk.inj same
  unfold slotHolding at held
  exact beq_iff_eq.1 (List.find?_some (p := fun k => (su.reels.get q).slots.get k == some g) held)

theorem pageMapping_none {su : Setup} {g : Fin 32} : pageMapping su g = none ↔
    ∀ q k, (su.reels.get q).slots.get k ≠ some g := by
  unfold pageMapping slotHolding
  simp only [List.findSome?_eq_none_iff, Option.map_eq_none_iff, List.find?_eq_none, beq_iff_eq]
  exact ⟨fun h q k => h q (mem_allPositions q) k (mem_allChains k), fun h q _ k _ => h q k⟩

theorem pageMapping_of {su : Setup} {g : Fin 32} {p : Fin 8} {k : Fin 4} (single : PagesSingle su)
    (h : (su.reels.get p).slots.get k = some g) : pageMapping su g = some (p, k) := by
  cases hm : pageMapping su g with
  | none => exact absurd h (pageMapping_none.1 hm p k)
  | some x =>
    obtain ⟨q, j⟩ := x
    obtain ⟨rfl, rfl⟩ := single _ _ _ _ _ (pageMapping_held hm) h
    rfl

/-! ### A write on a page (R68, R69) -/

section
variable {e : Env} {g : Fin 32} {w : Fin 8 → Bool} {r : Run}

theorem cursorRewritten_unmapped (h : pageMapping e.setup g = none) : cursorRewritten g w e r = r := by
  unfold cursorRewritten
  rw [h]

theorem cursorRewritten_elsewhere {p : Fin 8} {k : Fin 4} (h : pageMapping e.setup g = some (p, k))
    (away : ∀ i, w i = true → (r.scans.get p).cursor ≠ recordIndex e.setup p k i) : cursorRewritten g w e r = r := by
  unfold cursorRewritten
  rw [h]
  refine if_neg fun here => ?_
  obtain ⟨i, -, here⟩ := List.any_eq_true.1 here
  simp only [Bool.and_eq_true, beq_iff_eq] at here
  exact away i here.1 here.2.symm

theorem cursorRewritten_here {p : Fin 8} {k : Fin 4} {i : Fin 8} (h : pageMapping e.setup g = some (p, k)) (hi : w i = true)
    (here : (r.scans.get p).cursor = recordIndex e.setup p k i) :
    cursorRewritten g w e r = endScanHold e p ScanRec.released r := by
  unfold cursorRewritten
  rw [h]
  refine if_pos (List.any_eq_true.2 ⟨i, mem_allPositions i, ?_⟩)
  simp only [Bool.and_eq_true, beq_iff_eq]
  exact ⟨hi, here.symm⟩

/-- R68: a write touches no motion record, no lamp, no notice, and hands nothing on. -/
theorem cursorRewritten_others : (cursorRewritten g w e r).motions = r.motions ∧ (cursorRewritten g w e r).lamps = r.lamps
    ∧ (cursorRewritten g w e r).notices = r.notices ∧ (cursorRewritten g w e r).handoffs = r.handoffs := by
  unfold cursorRewritten
  split
  · exact ⟨rfl, rfl, rfl, rfl⟩
  · split
    · exact endScanHold_others
    · exact ⟨rfl, rfl, rfl, rfl⟩

theorem endScanHold_unheld {p : Fin 8} {f : ScanRec → ScanRec} (h : (r.scans.get p).hold ≠ .hold) :
    endScanHold e p f r = r.modScan p f := by
  unfold endScanHold
  dsimp only
  split
  · rename_i held _
    exact absurd held h
  · rfl

theorem endScanHold_held {p : Fin 8} {c : Fin 4} {z : Port} {f : ScanRec → ScanRec} (h : (r.scans.get p).hold = .hold)
    (hc : chainOf e.setup p = some (c, z)) : endScanHold e p f r = holdEnd e c p .noNotice (r.modScan p f) := by
  unfold endScanHold
  dsimp only
  rw [h, hc]

end

/-- What a write on page g leaves of the run (R68). -/
def RewriteLeaves (s : State) (r : Run) (g : Fin 32) (written : Fin 8 → Prop) : Prop :=
  ((∀ q k, (s.setup.reels.get q).slots.get k ≠ some g) → r = s.run)
  ∧ ∀ (p : Fin 8) (k : Fin 4), (s.setup.reels.get p).slots.get k = some g →
    let y := s.run.scans.get p
    let first := 8 * ((s.setup.reels.get p).slots.toList.take k.val).countP Option.isSome
    ((∀ i, written i → y.cursor ≠ first + i.val) → r = s.run)
    ∧ (∀ i, written i → y.cursor = first + i.val →
        r.scans = s.run.scans.set p y.rewritten
        ∧ (y.hold ≠ .hold → r = { s.run with scans := r.scans })
        ∧ (∀ c z m i, y.hold = .hold → chainOf s.setup p = some (c, z) →
            let was := s.run.chains.get c
            was.state = .holding → was.hold = some m → was.observed = some i → PortsSingle s.setup →
            (∀ w r, portPosition s.setup c w = some r → pastRunout s.setup s.run c r = false) →
            r = { s.run with
              scans := r.scans, runoutRaised := r.runoutRaised, tailStopped := r.tailStopped
              chains := s.run.chains.set c
                (was.unheld (s.setup.modes.get c).holdLimit (StateFrom s c i)) }))

theorem rewriteLeaves {s : State} {g : Fin 32} {w : Fin 8 → Bool} {written : Fin 8 → Prop} {e : Env}
    {page : Vector (Option Cue) 8} (he : e.setup = { s.setup with pages := s.setup.pages.set g page })
    (hw : ∀ i, w i = true ↔ written i) (single : PagesSingle s.setup) :
    RewriteLeaves s (cursorRewritten g w e s.run) g written := by
  have reels : e.setup.reels = s.setup.reels := by rw [he]
  refine ⟨fun unmapped => cursorRewritten_unmapped (pageMapping_none.2 (by rw [reels]; exact unmapped)), fun p k held => ?_⟩
  have mapping : pageMapping e.setup g = some (p, k) :=
    pageMapping_of (by unfold PagesSingle; rw [reels]; exact single) (by rw [reels]; exact held)
  intro y first
  have index : ∀ i, recordIndex e.setup p k i = first + i.val := by
    intro i
    unfold recordIndex
    rw [reels]
  refine ⟨fun away => cursorRewritten_elsewhere mapping fun i hi => by rw [index]; exact away i ((hw i).1 hi),
    fun i hi here => ?_⟩
  rw [cursorRewritten_here mapping ((hw i).2 hi) (here.trans (index i).symm)]
  refine ⟨?_, fun unheld => ?_, fun c z m j held hc holding holds observed ports still => ?_⟩
  · obtain ⟨c, side⟩ := endScanHold_side (e := e) p ScanRec.released s.run
    exact side.scans
  · rw [endScanHold_unheld unheld]
    rfl
  · have hc' : chainOf e.setup p = some (c, z) := by rw [he]; exact hc
    have derived : derivedState e.setup (s.run.modScan p ScanRec.released) c = StateFrom s c j := by
      rw [he]
      exact derivedState_eq (s := s) (r := s.run.modScan p ScanRec.released) observed rfl
    have limit : e.setup.modes = s.setup.modes := by rw [he]
    rw [endScanHold_held held hc']
    obtain ⟨raised, stopped, ended⟩ := holdEnd_derives (e := e) (c := c)
      (r := s.run.modScan p ScanRec.released) (p := p) (how := .noNotice) (m := m) trivial (by rw [he]; exact ports)
      (by rw [he]; exact still) holding holds
    rw [ended, derived, limit]
    rfl

/-! ### The octets of a cue record (R67) -/

/-- R67: what makes a record's octets out of range. -/
def CueOutOfRange (x : Vector Byte 9) : Prop :=
  let point := read24 x[1] x[2] x[3]
  let back := read24 x[4] x[5] x[6]
  let n := x[7].toNat
  let isMark := x[0].getLsbD 6
  let hasBack := x[0].getLsbD 4
  point < -32768 ∨ 262143 < point ∨ (isMark = true ∧ (n = 0 ∨ 4 < n))
    ∨ (hasBack = true ∧ isMark = false)
    ∨ (hasBack = true ∧ (back < -32768 ∨ 262143 < back ∨ back < point))

theorem inRange_iff {v : Int} : inRange v = true ↔ -32768 ≤ v ∧ v ≤ 262143 := by
  unfold inRange
  rw [Bool.and_eq_true, decide_eq_true_iff, decide_eq_true_iff]
  rfl

theorem readTrigger_out {x : Vector Byte 9} (h : CueOutOfRange x) : readTrigger x (read24 x[1] x[2] x[3]) = none := by
  unfold CueOutOfRange at h
  unfold readTrigger
  dsimp only at h ⊢
  generalize read24 x[1] x[2] x[3] = point at *
  generalize read24 x[4] x[5] x[6] = back at *
  by_cases range : inRange point = true
  · obtain ⟨low, high⟩ := inRange_iff.1 range
    rw [range]
    cases mark : x[0].getLsbD 6 <;> cases hasBack : x[0].getLsbD 4 <;> simp only [mark, hasBack] at h ⊢
    · simp at h; omega
    · simp
    · simp at h ⊢; omega
    · simp only [Bool.not_true, Bool.false_eq_true, if_false, if_true]
      by_cases ordinal : x[7].toNat = 0 ∨ 4 < x[7].toNat
      · rw [if_pos ordinal]
      · rw [if_neg ordinal, if_neg]
        rw [Bool.and_eq_true, inRange_iff, decide_eq_true_iff]
        simp at h
        omega
  · rw [Bool.not_eq_true] at range
    rw [range]
    rfl

theorem readTrigger_in {x : Vector Byte 9} (h : ¬ CueOutOfRange x) : readTrigger x (read24 x[1] x[2] x[3]) =
    some (if x[0].getLsbD 6 then .mark x[7].toNat (if x[0].getLsbD 4 then some (read24 x[4] x[5] x[6]) else none)
      else .position) := by
  unfold CueOutOfRange at h
  unfold readTrigger
  dsimp only at h ⊢
  generalize read24 x[1] x[2] x[3] = point at *
  generalize read24 x[4] x[5] x[6] = back at *
  simp only [not_or, Classical.not_and_iff_not_or_not, Int.not_lt] at h
  obtain ⟨low, high, ordinal, backed, back_range⟩ := h
  rw [inRange_iff.2 ⟨low, high⟩]
  cases mark : x[0].getLsbD 6 <;> cases hasBack : x[0].getLsbD 4 <;> simp only [mark, hasBack] at *
  · rfl
  · simp at backed
  · simp at ordinal ⊢; omega
  · have range : inRange back = true ∧ point ≤ back := by rw [inRange_iff]; simp at back_range; omega
    simp only [not_true_eq_false, false_or] at ordinal
    simp only [Bool.not_true, Bool.false_eq_true, if_false, if_true]
    rw [if_neg (by omega), if_pos (by rw [range.1, decide_eq_true range.2]; rfl)]

theorem Action.ofOctet_eq_none {b : Byte} (h : b &&& 7 = 7) : Action.ofOctet b = none := by
  unfold Action.ofOctet
  rw [h]
  rfl

theorem Action.ofOctet_isSome {b : Byte} (h : b &&& 7 ≠ 7) : (Action.ofOctet b).isSome = true := by
  have small : (b &&& 7).toNat ≤ 7 := by
    rw [BitVec.toNat_and]
    exact Nat.and_le_right
  have other : (b &&& 7).toNat ≠ 7 := fun g => h (BitVec.eq_of_toNat_eq g)
  unfold Action.ofOctet
  generalize (b &&& 7).toNat = n at small other
  match n with
  | 0 | 1 | 2 | 3 | 4 | 5 | 6 => rfl
  | 7 => exact absurd rfl other
  | n + 8 => exact absurd small (by omega)

section
variable {x : Vector Byte 9}

theorem readCueRecord_vacant (h : x[0].getLsbD 7 = false) : readCueRecord x = .vacant := by
  unfold readCueRecord
  rw [h]
  rfl

theorem readCueRecord_badreq (h : x[0].getLsbD 7 = true) (code : x[0] &&& 7 = 7) : readCueRecord x = .refused .badreq := by
  unfold readCueRecord
  rw [h, Action.ofOctet_eq_none code]
  rfl

theorem readCueRecord_range (h : x[0].getLsbD 7 = true) (code : x[0] &&& 7 ≠ 7) (bad : CueOutOfRange x) :
    readCueRecord x = .refused .range := by
  obtain ⟨a, action⟩ := Option.isSome_iff_exists.1 (Action.ofOctet_isSome code)
  unfold readCueRecord
  rw [h, action]
  dsimp only
  rw [readTrigger_out bad]
  rfl

theorem readCueRecord_loaded {a : Action} (h : x[0].getLsbD 7 = true) (action : Action.ofOctet x[0] = some a)
    (good : ¬ CueOutOfRange x) : readCueRecord x = .loaded {
      trigger := if x[0].getLsbD 6 then .mark x[7].toNat (if x[0].getLsbD 4 then some (read24 x[4] x[5] x[6]) else none)
        else .position
      point := read24 x[1] x[2] x[3], action := a, tag := x[8] } := by
  unfold readCueRecord
  rw [h, action]
  dsimp only
  rw [readTrigger_in good]
  rfl

end

/-! ### LOAD CUE, its page and record named in one octet (R67) -/

section
variable {pr : Byte} {g : Fin 32} {i : Fin 8} (h : pr.toNat = 8 * g.val + i.val) {x : Vector Byte 9} {s : State}
include h

theorem page_of_octet : (⟨pr.toNat / 8, by omega⟩ : Fin 32) = g := Fin.ext (by show pr.toNat / 8 = g.val; omega)

theorem record_of_octet : (⟨pr.toNat % 8, by omega⟩ : Fin 8) = i := Fin.ext (by show pr.toNat % 8 = i.val; omega)

theorem reqLoadCue_locked (locked : pageLocked s.setup s.run g = true) : reqLoadCue pr x s = refuse .locked s := by
  unfold reqLoadCue
  dsimp only
  rw [page_of_octet h, if_pos locked]

theorem reqLoadCue_refused {why : Result} (free : pageLocked s.setup s.run g = false)
    (read : readCueRecord x = .refused why) : reqLoadCue pr x s = refuse why s := by
  unfold reqLoadCue
  dsimp only
  rw [page_of_octet h, if_neg (Bool.eq_false_iff.1 free), read]

theorem reqLoadCue_vacant (free : pageLocked s.setup s.run g = false) (read : readCueRecord x = .vacant) :
    reqLoadCue pr x s = writeCue g i none s := by
  unfold reqLoadCue
  dsimp only
  rw [page_of_octet h, record_of_octet h, if_neg (Bool.eq_false_iff.1 free), read]

theorem reqLoadCue_loaded {b : Cue} (free : pageLocked s.setup s.run g = false) (read : readCueRecord x = .loaded b) :
    reqLoadCue pr x s = writeCue g i (some b) s := by
  unfold reqLoadCue
  dsimp only
  rw [page_of_octet h, record_of_octet h, if_neg (Bool.eq_false_iff.1 free), read]

end

theorem reqClearPage_at {pr : Byte} {g : Fin 32} (h : pr.toNat = g.val) (s : State) :
    reqClearPage pr s = if pageLocked s.setup s.run g then refuse .locked s
      else answerDone data10 ({ s with setup := { s.setup with pages := s.setup.pages.set g (Vector.replicate 8 none) } }.act
        (cursorRewritten g (fun _ => true))) := by
  unfold reqClearPage
  rw [indexOf_eq_some.2 h]

/-- A write on a page, answered DONE. -/
theorem page_written {s : State} (ha : s.acting) (hq : s.quiet) {m : Payload} {n : Nat} {tag : Byte} {g : Fin 32}
    {page : Vector (Option Cue) 8} {w : Fin 8 → Bool} {written : Fin 8 → Prop} (hw : ∀ i, w i = true ↔ written i)
    (answered : answerManage m s =
      answerDone data10 ({ s with setup := { s.setup with pages := s.setup.pages.set g page } }.act (cursorRewritten g w)))
    (kept : Written s (answerManage m s).state)
    (code : m[0].toNat = n := by rfl) (tagged : m[1] = tag := by rfl) (owned : 1 ≤ n ∧ n ≤ 24 := by decide) :
    ∃ t, request m s = .next t
      ∧ t.port.loopOut = some (s.replyCell n tag 0 (Vector.replicate 10 0))
      ∧ t.setup = { s.setup with pages := s.setup.pages.set g page }
      ∧ t.run.motions = s.run.motions ∧ t.run.lamps = s.run.lamps ∧ t.run.notices = s.run.notices
      ∧ LadderKept s t ∧ (PagesSingle s.setup → RewriteLeaves s t.run g written) := by
  obtain ⟨motions, lamps, notices, handoffs⟩ := cursorRewritten_others
    (e := { setup := { s.setup with pages := s.setup.pages.set g page }, sweep := s.port.sweep }) (g := g) (w := w) (r := s.run)
  obtain ⟨t, next, port, _, setup, _, run⟩ := coded_acted ha answered rfl (handoffs.trans hq) code tagged owned
  refine ⟨t, next, by rw [port], setup, ?_, ?_, ?_, request_ladderKept next kept, fun single => ?_⟩ <;> rw [run]
  · exact motions
  · exact lamps
  · exact notices
  · exact rewriteLeaves rfl hw single

end Sys2Proof.Machine

namespace Sys2Proof.Proofs

open Sys2Proof.Machine

/-- Settles O28: the octets are read as R67 gives them, and a write drops what the reel's cursor held there. -/
theorem cuePagesWritten : Obligations.CuePagesWritten := by
  intro tag pr x s ha hr hq point back n isMark hasBack bad rewrites ends
  have row : exec (.loadCue tag pr x) s = request (payload13 6 tag pr x[0] x[1] x[2] x[3] x[4] x[5] x[6] x[7] x[8]) s := rfl
  have octets : #v[x[0], x[1], x[2], x[3], x[4], x[5], x[6], x[7], x[8]] = x := by
    apply Vector.ext
    intro i hi
    match i with
    | 0 | 1 | 2 | 3 | 4 | 5 | 6 | 7 | 8 => rfl
    | i + 9 => exact absurd hi (by omega)
  have answers : answerManage (payload13 6 tag pr x[0] x[1] x[2] x[3] x[4] x[5] x[6] x[7] x[8]) s = reqLoadCue pr x s :=
    congrArg (fun y => reqLoadCue pr y s) octets
  have written : ∀ (i j : Fin 8), (j == i) = true ↔ j = i := fun i j => beq_iff_eq
  refine ⟨fun g i named => ⟨fun locked => ?_, fun free => ⟨fun vacant => ?_, fun loaded code => ?_, fun loaded code out => ?_,
    fun a loaded action good => ?_⟩⟩, fun above => ?_, fun g page locked => ?_, fun g page free => ?_⟩
  · exact coded_refused (n := 6) (tag := tag) ha hr (answers.trans (reqLoadCue_locked named locked))
  · exact page_written ha hq (written i) (answers.trans (reqLoadCue_vacant named free (readCueRecord_vacant vacant)))
      (answers ▸ reqLoadCue_written pr x s)
  · exact coded_refused (n := 6) (tag := tag) ha hr
      (answers.trans (reqLoadCue_refused named free (readCueRecord_badreq loaded code)))
  · exact coded_refused (n := 6) (tag := tag) ha hr
      (answers.trans (reqLoadCue_refused named free (readCueRecord_range loaded code out)))
  · exact page_written ha hq (written i)
      (answers.trans (reqLoadCue_loaded named free (readCueRecord_loaded loaded action good)))
      (answers ▸ reqLoadCue_written pr x s)
  · have refused : reqClearPage pr s = refuse .range s := by
      unfold reqClearPage
      rw [indexOf_eq_none.2 above]
    exact coded_refused (m := payload13 8 tag pr) ha hr refused
  · exact coded_refused (m := payload13 8 tag pr) ha hr ((reqClearPage_at page s).trans (if_pos locked))
  · have done := (reqClearPage_at page s).trans (if_neg (Bool.eq_false_iff.1 free))
    exact page_written (m := payload13 8 tag pr) ha hq (fun i => ⟨fun _ => trivial, fun _ => rfl⟩) done
      (reqClearPage_written pr s)

end Sys2Proof.Proofs
end

section
/-! PROOFS. SET REEL and SET POSITION (O30). -/

namespace Sys2Proof.Machine

theorem read24_octets (w : Word24) : read24 (hi24of w) (mid24of w) (lo24of w) = w.toInt := by
  have joined : hi24of w ++ mid24of w ++ lo24of w = w := by
    unfold hi24of mid24of lo24of
    rw [BitVec.extractLsb'_append_extractLsb'_eq_extractLsb' (by omega)]
    exact (BitVec.extractLsb'_append_extractLsb'_eq_extractLsb' (by omega)).trans (by simp)
  unfold read24
  exact congrArg BitVec.toInt joined

/-! ### SET REEL (R73) -/

theorem exec_setReel (tag position flags : Byte) (w : Word24) (s : State) : exec (.setReel tag position flags w) s =
    request (payload13 10 tag position flags (hi24of w) (mid24of w) (lo24of w)) s := rfl

theorem answerManage_setReel (tag position flags : Byte) (w : Word24) (s : State) :
    answerManage (payload13 10 tag position flags (hi24of w) (mid24of w) (lo24of w)) s = reqSetReel position flags w.toInt s := by
  show reqSetReel position flags (read24 (hi24of w) (mid24of w) (lo24of w)) s = _
  rw [read24_octets]

theorem readLastPicture_in {flags : Byte} {v : Int} (h : flags.getLsbD 0 = true → -32768 ≤ v ∧ v ≤ 262143) :
    readLastPicture flags v = some (if flags.getLsbD 0 then some v else none) := by
  unfold readLastPicture
  split
  · rename_i present
    rw [if_pos (inRange_iff.2 (h present))]
  · rfl

theorem readLastPicture_out {flags : Byte} {v : Int} (present : flags.getLsbD 0 = true) (h : v < -32768 ∨ 262143 < v) :
    readLastPicture flags v = none := by
  unfold readLastPicture
  rw [if_pos present]
  exact if_neg fun inside => by
    rw [inRange_iff] at inside
    omega

theorem reqSetReel_range {position flags : Byte} {v : Int} {s : State}
    (h : 7 < position.toNat ∨ flags.getLsbD 0 = true ∧ (v < -32768 ∨ 262143 < v)) :
    reqSetReel position flags v s = refuse .range s := by
  unfold reqSetReel
  rcases h with above | ⟨present, out⟩
  · rw [indexOf_eq_none.2 above]
  · rw [readLastPicture_out present out]
    cases indexOf 8 position <;> rfl

/-- The set-up with a reel's last picture written. -/
def Setup.withLast (su : Setup) (p : Fin 8) (v : Option Int) : Setup :=
  { su with reels := su.reels.set p { su.reels.get p with lastPicture := v } }

theorem reqSetReel_at {position flags : Byte} {p : Fin 8} {v : Int} (hp : position.toNat = p.val)
    (inside : flags.getLsbD 0 = true → -32768 ≤ v ∧ v ≤ 262143) (s : State) :
    reqSetReel position flags v s = if reelLocked s.run p then refuse .locked s
      else answerDone data10 ({ s with setup := s.setup.withLast p (if flags.getLsbD 0 then some v else none) }.act
        (fun e r => evaluateRunout e false p r)) := by
  unfold reqSetReel
  rw [indexOf_eq_some.2 hp, readLastPicture_in inside]
  rfl

/-! ### SET POSITION (R75, R76) -/

theorem exec_setPosition (tag position : Byte) (w : Word24) (s : State) : exec (.setPosition tag position w) s =
    request (payload13 12 tag position (hi24of w) (mid24of w) (lo24of w)) s := rfl

theorem answerManage_setPosition (tag position : Byte) (w : Word24) (s : State) :
    answerManage (payload13 12 tag position (hi24of w) (mid24of w) (lo24of w)) s = reqSetPosition position w.toInt s := by
  show reqSetPosition position (read24 (hi24of w) (mid24of w) (lo24of w)) s = _
  rw [read24_octets]

theorem reqSetPosition_at {position : Byte} {p : Fin 8} (hp : position.toNat = p.val) (v : Int) (s : State) :
    reqSetPosition position v s = if !definedPos s.setup p || !inRange v then refuse .range s
      else if !(motionOf s.run p).atRest then refuse .locked s
      else answerDone data10 (s.act (placePosition p v)) := by
  unfold reqSetPosition
  rw [indexOf_eq_some.2 hp]

theorem reqSetPosition_range {position : Byte} {v : Int} {s : State} (h : 7 < position.toNat ∨ v < -32768 ∨ 262143 < v) :
    reqSetPosition position v s = refuse .range s := by
  by_cases above : 8 ≤ position.toNat
  · unfold reqSetPosition
    rw [indexOf_eq_none.2 above]
  · rw [reqSetPosition_at (p := ⟨position.toNat, by omega⟩) rfl]
    refine if_pos ?_
    rw [Bool.or_eq_true]
    refine .inr ?_
    rw [Bool.not_eq_true', ← Bool.not_eq_true, inRange_iff]
    omega

/-- The position and its reel's cursor written, before the conditions and the runout are worked. -/
def placedAt (p : Fin 8) (v : Int) (e : Env) (r : Run) : Run :=
  endScanHold e p (ScanRec.placed (placeCursor e.setup p v))
    (r.modMotion p (fun m => { m with value := v, referenced := true }))

section
variable {e : Env} {p : Fin 8} {v : Int} {r : Run}

theorem placePosition_eq : placePosition p v e r = evaluateRunout e false p
    (if (r.motions.get p).referenced then placedAt p v e r else workConditions e p (placedAt p v e r)) := rfl

theorem placedAt_motions :
    (placedAt p v e r).motions = (r.modMotion p (fun m => { m with value := v, referenced := true })).motions :=
  endScanHold_others.1

theorem placePosition_acts_on : Acts e false true (placedAt p v e r) (placePosition p v e r) := by
  rw [placePosition_eq]
  refine evaluateRunout_acts _ _ ?_
  split
  · exact .refl
  · exact workConditions_acts _ .refl

/-- R76: no other motion record is touched, whatever follows. -/
theorem placePosition_drained (quiet : r.handoffs = []) : (drain e (placePosition p v e r)).motions =
    (r.modMotion p (fun m => { m with value := v, referenced := true })).motions := by
  have silent : (placedAt p v e r).handoffs = [] := endScanHold_others.2.2.2.trans quiet
  have due : NoMotionDue (placePosition p v e r) :=
    placePosition_acts_on.noMotionDue fun x hx => absurd (silent ▸ hx) List.not_mem_nil
  calc (drain e (placePosition p v e r)).motions
      = (placePosition p v e r).motions := (drain_acts_quietly (obs := true) due).motions
    _ = (placedAt p v e r).motions := placePosition_acts_on.motions
    _ = _ := placedAt_motions

/-- R75: where no condition that a partner's reel hears of changes, the conditions work to nothing. -/
theorem placePosition_silently (same : (r.motions.get p).referenced = true ∨ partnerOf e.setup p = none
      ∨ ((r.lamps.get p).lamp ≠ .lit ∧ (r.lamps.get p).primed = false ∧ (r.lamps.get p).ready = false)) :
    (placePosition p v e r).scans = (placedAt p v e r).scans ∧ (placePosition p v e r).notices = r.notices
      ∧ (placePosition p v e r).handoffs = r.handoffs := by
  obtain ⟨_, lamps, notices, handoffs⟩ := endScanHold_others (e := e) (p := p)
    (f := ScanRec.placed (placeCursor e.setup p v)) (r := r.modMotion p (fun m => { m with value := v, referenced := true }))
  have worked : ∃ l, (if (r.motions.get p).referenced then placedAt p v e r else workConditions e p (placedAt p v e r)) =
      { placedAt p v e r with lamps := l } := by
    split
    · exact ⟨_, rfl⟩
    · rename_i fresh
      rcases same with h | h | ⟨unlit, primes, readies⟩
      · exact absurd h fresh
      · exact ⟨_, publish_quietly (.inl h)⟩
      · have lamp : (placedAt p v e r).lamps.get p = r.lamps.get p := congrArg (·.get p) lamps
        exact ⟨_, workConditions_same (by rw [lamp]; exact unlit) (by rw [lamp]; exact primes) (by rw [lamp]; exact readies)⟩
  obtain ⟨l, worked⟩ := worked
  have side := evaluateRunout_side (e := e) (c := 0) false p (.refl { placedAt p v e r with lamps := l })
  rw [placePosition_eq, worked]
  exact ⟨side.scans, side.notices.trans notices, side.handoffs.trans handoffs⟩

end

/-- R75: the first LOADED record whose trigger position is at or above the value, else the list's end. -/
theorem placeCursor_eq {su : Setup} {p : Fin 8} {v : Int} {n : Nat} (within : n ≤ listLength su p)
    (below : ∀ j b, j < n → (cueList su p)[j]? = some (some b) → b.point < v)
    (here : n < listLength su p → ∃ b, (cueList su p)[n]? = some (some b) ∧ v ≤ b.point) : placeCursor su p v = n := by
  have passed : ∀ j (hj : j < (cueList su p).length), j < n →
      ((cueList su p)[j]).any (fun b => decide (v ≤ b.point)) = false := by
    intro j hj hn
    cases hb : (cueList su p)[j] with
    | none => rfl
    | some b =>
      have low := below j b hn (by rw [List.getElem?_eq_getElem hj, hb])
      exact decide_eq_false (Int.not_le.2 low)
  unfold placeCursor
  rcases Nat.lt_or_eq_of_le within with inside | atEnd
  · obtain ⟨b, hb, high⟩ := here inside
    obtain ⟨hn, hb⟩ := List.getElem?_eq_some_iff.1 hb
    refine (List.findIdx_eq hn).2 ⟨by rw [hb]; exact decide_eq_true high, fun j hj => passed j _ hj⟩
  · rw [atEnd]
    refine List.findIdx_eq_length_of_false fun x hx => ?_
    obtain ⟨j, hj, rfl⟩ := List.mem_iff_getElem.1 hx
    exact passed j hj (by rw [atEnd]; exact hj)

end Sys2Proof.Machine

namespace Sys2Proof.Proofs

open Sys2Proof.Machine

/-- Settles O30: the runout evaluation and the placing of the cursor touch nothing else. -/
theorem reelAndPositionSet : Obligations.ReelAndPositionSet := by
  intro tag position flags w s ha hr hq
  have row := answerManage_setReel tag position flags w s
  have place := answerManage_setPosition tag position w s
  refine ⟨fun bad => ?_, fun bad => ?_, fun p hp inside => ⟨fun moves => ?_, fun still => ?_⟩,
    fun p hp low high => ⟨fun undefined => ?_, fun defined moving => ?_, fun defined rests => ?_⟩⟩
  · exact coded_refused (n := 10) (tag := tag) ha hr (row.trans (reqSetReel_range bad))
  · exact coded_refused (n := 12) (tag := tag) ha hr (place.trans (reqSetPosition_range bad))
  · exact coded_refused (n := 10) (tag := tag) ha hr (row.trans ((reqSetReel_at hp inside s).trans (if_pos moves)))
  · have done := row.trans ((reqSetReel_at hp inside s).trans (if_neg (Bool.eq_false_iff.1 still)))
    have side := evaluateRunout_side (c := 0) false p (.refl (e := {
      setup := s.setup.withLast p (if flags.getLsbD 0 then some w.toInt else none), sweep := s.port.sweep }) s.run)
    obtain ⟨t, next, port, _, setup, _, run⟩ := coded_acted (n := 10) (tag := tag) ha done rfl (side.handoffs.trans hq)
    refine ⟨t, next, by rw [port], setup, ?_, ?_, ?_, ?_,
      request_ladderKept next (by rw [row]; exact reqSetReel_written ..)⟩ <;> rw [run]
    · exact side.motions
    · exact side.lamps
    · exact side.scans
    · exact side.notices
  · exact coded_refused (n := 12) (tag := tag) ha hr (place.trans ((reqSetPosition_at hp w.toInt s).trans (if_pos (by
      unfold definedPos
      rw [undefined]
      rfl))))
  · have named : (!definedPos s.setup p || !inRange w.toInt) = false := by
      unfold definedPos
      rw [defined, inRange_iff.2 ⟨low, high⟩]
      rfl
    refine coded_refused (n := 12) (tag := tag) ha hr (place.trans ((reqSetPosition_at hp w.toInt s).trans
      ((if_neg (Bool.eq_false_iff.1 named)).trans (if_pos ?_))))
    rw [Bool.not_eq_true', ← Bool.not_eq_true, atRest_iff]
    exact fun h => h.elim moving.1 moving.2
  · have named : (!definedPos s.setup p || !inRange w.toInt) = false := by
      unfold definedPos
      rw [defined, inRange_iff.2 ⟨low, high⟩]
      rfl
    have done := place.trans ((reqSetPosition_at hp w.toInt s).trans ((if_neg (Bool.eq_false_iff.1 named)).trans (if_neg (by
      rw [Bool.not_eq_true', ← Bool.not_eq_true, Classical.not_not]
      exact atRest_iff.2 rests))))
    obtain ⟨t, next, port, _, setup, _, run⟩ := coded_answered (n := 12) (tag := tag) ha done
    have motions : t.run.motions = _ := (congrArg Run.motions run).trans (placePosition_drained hq)
    refine ⟨t, next, congrArg LoopPort.loopOut port, setup, ?_, fun q other => ?_,
      request_ladderKept next (by rw [place]; exact ⟨s.setup, .same, reqSetPosition_undisturbed ..⟩),
      fun n within below here same => ?_⟩
    · rw [motions]
      exact (Run.modMotion_get ..).trans (if_pos rfl)
    · rw [motions]
      exact (Run.modMotion_get ..).trans (if_neg (Ne.symm other))
    · obtain ⟨scans, notices, handoffs⟩ := placePosition_silently (e := s.env) (v := w.toInt) same
      have settled : t.run = placePosition p w.toInt s.env s.run := run.trans (drain_quiet (handoffs.trans hq))
      obtain ⟨c, side⟩ := endScanHold_side (e := s.env) p (ScanRec.placed (placeCursor s.setup p w.toInt))
        (s.run.modMotion p (fun m => { m with value := w.toInt, referenced := true }))
      refine ⟨?_, by rw [settled, notices]⟩
      rw [settled, scans, ← placeCursor_eq within below here]
      exact side.scans

end Sys2Proof.Proofs
end

section
/-! PROOFS. The runout guarded at a SET REEL and at a change of the runout guard (O34). -/

namespace Sys2Proof.Machine

/-! ### A request whose blocks leave a run that the claim writes out -/

theorem act_of {s : State} {su : Setup} {f : Env → Run → Run} {r : Run}
    (acted : f { setup := su, sweep := s.port.sweep } s.run = r) (silent : r.handoffs = []) :
    { s with setup := su }.act f = { s with setup := su, run := r } := by
  have drained : drain { setup := su, sweep := s.port.sweep } (f { setup := su, sweep := s.port.sweep } s.run) = r :=
    (congrArg (drain _) acted).trans (drain_quiet silent)
  unfold State.act
  exact congrArg (fun r => { s with setup := su, run := r }) drained

/-- A request answered DONE that leaves the alarm slots as they stand. -/
theorem coded_leaves {s : State} (ha : s.acting) (hr : s.contactRight) {m : Payload} {n : Nat} {tag : Byte} {su : Setup}
    {f : Env → Run → Run} {r : Run} (answered : answerManage m s = answerDone data10 ({ s with setup := su }.act f))
    (acted : f { setup := su, sweep := s.port.sweep } s.run = r) (silent : r.handoffs = []) (slots : r.slots = s.run.slots)
    (code : m[0].toNat = n := by rfl) (tagged : m[1] = tag := by rfl) (owned : 1 ≤ n ∧ n ≤ 24 := by decide) :
    request m s = .next (State.replies { s with setup := su, run := r } n tag 0 (Vector.replicate 10 0)) := by
  refine coded_done (u := { s with setup := su, run := r }) ha ?_ (answered.trans (congrArg (answerDone data10) (act_of acted silent))) rfl rfl code
    tagged owned
  refine hr.trans ?_
  unfold contactAsserted majorStands severityOf
  rw [slots]

/-! ### The guard (R120) -/

section
variable {e : Env} {c : Fin 4} {p : Fin 8} {z : Port} {r : Run}

theorem raiseRunout_stands (h : r.runoutRaised.get p = true) : raiseRunout e c p r = r := if_pos h

theorem raiseRunout_fresh (h : r.runoutRaised.get p = false) : raiseRunout e c p r = { r with
    slots := (raiseChain e (slotRunout c) r).slots, runoutRaised := r.runoutRaised.set p true } := by
  refine (if_neg (Bool.eq_false_iff.1 h)).trans ?_
  rw [raiseChain_frame]
  rfl

theorem guardRunout_holding {keep : Bool} (h : (r.chains.get c).state = .holding) :
    guardRunout e keep c p r = raiseRunout e c p r := by
  unfold guardRunout chainState
  rw [h]

theorem guardRunout_film {keep : Bool} (h : (r.chains.get c).state = .single ∨ (r.chains.get c).state = .double) :
    guardRunout e keep c p r =
      if (e.setup.modes.get c).fallback then switchToFallback e c keep (raiseRunout e c p r) else raiseRunout e c p r := by
  unfold guardRunout chainState
  rcases h with h | h <;> rw [h]

theorem evaluateRunout_onAir {keep : Bool} (hc : chainOf e.setup p = some (c, z)) (past : pastRunout e.setup r c p = true)
    (onAir : isOnAir e.setup r p = true) : evaluateRunout e keep p r = guardRunout e keep c p r := by
  unfold evaluateRunout
  rw [hc]
  dsimp only
  rw [past, onAir]
  rfl

theorem evaluateRunout_offAir {keep : Bool} (hc : chainOf e.setup p = some (c, z)) (past : pastRunout e.setup r c p = true)
    (offAir : isOnAir e.setup r p = false) : evaluateRunout e keep p r = tailStop e c z p r := by
  unfold evaluateRunout
  rw [hc]
  dsimp only
  rw [past, offAir]
  rfl

theorem evaluateRunout_alone {keep : Bool} (hc : chainOf e.setup p = none) : evaluateRunout e keep p r = r := by
  unfold evaluateRunout
  rw [hc]

/-- R119: referenced, the last picture present, and the value the guard beyond it. -/
theorem pastRunout_iff {su : Setup} : pastRunout su r c p = true ↔ ∃ v, (su.reels.get p).lastPicture = some v
    ∧ (r.motions.get p).referenced = true ∧ v + ((su.modes.get c).runoutGuard : Int) ≤ (r.motions.get p).value := by
  refine ⟨fun past => ?_, fun ⟨v, reel, referenced, beyond⟩ => ?_⟩
  · refine Classical.byContradiction fun short => ?_
    exact nomatch (pastRunout_eq_false short).symm.trans past
  · unfold pastRunout
    rw [reel]
    dsimp only
    rw [referenced, decide_eq_true beyond]
    rfl

/-- R121: STOP and then DOWSER CLOSE queued, and the flag set. -/
theorem tailStop_stops {d : PosDef} (hd : e.setup.positions.get p = some d)
    (runs : (r.motions.get p).motion = .runup ∨ (r.motions.get p).motion = .locked) (fresh : r.tailStopped.get p = false)
    (free : ¬ ((r.chains.get c).state = .switching ∧ (r.chains.get c).target = some (z.input, .change))) :
    tailStop e c z p r = { r with
      orders := enqueueOrder d.station .dowserClose (enqueueOrder d.station .stop r.orders)
      tailStopped := r.tailStopped.set p true } := by
  have target : isChangeTarget r c z = false := by
    rw [← Bool.not_eq_true]
    unfold isChangeTarget chainState
    rw [Bool.and_eq_true, beq_iff_eq, beq_iff_eq]
    exact free
  have stops : ((motionOf r p).running && !r.tailStopped.get p && !isChangeTarget r c z) = true := by
    rw [show (motionOf r p).running = true from running_iff.2 runs, fresh, target]
    rfl
  unfold tailStop
  rw [if_pos stops, queueFor_defined hd, queueFor_defined hd]
  rfl

end

/-! ### SET REEL with a last picture written (R73, R119) -/

theorem withLast_lastPicture (su : Setup) (p : Fin 8) (v : Option Int) : ((su.withLast p v).reels.get p).lastPicture = v := by
  have written : (su.withLast p v).reels.get p = { su.reels.get p with lastPicture := v } :=
    (get_set_fin ..).trans (if_pos rfl)
  rw [written]

/-! ### SET CHAIN MODE (R124) -/

/-- The set-up with a chain's mode written. -/
def Setup.withMode (su : Setup) (c : Fin 4) (m : ChainMode) : Setup := { su with modes := su.modes.set c m }

theorem withMode_mode (su : Setup) (c : Fin 4) (m : ChainMode) : (su.withMode c m).modes.get c = m :=
  (get_set_fin ..).trans (if_pos rfl)

/-- The mode that the octets carry (R172). -/
def modeOf (mode h w g : Byte) : ChainMode :=
  { armed := mode.getLsbD 0, fallback := mode.getLsbD 1, holdLimit := h.toNat, switchLimit := w.toNat
    runoutGuard := g.toNat }

theorem readMode_in {mode h w g : Byte} (h5 : 5 ≤ h.toNat) (h250 : h.toNat ≤ 250) (w2 : 2 ≤ w.toNat) (w10 : w.toNat ≤ 10) :
    readMode mode h w g = some (modeOf mode h w g) := if_pos ⟨h5, h250, w2, w10⟩

theorem readMode_out {mode h w g : Byte} (out : h.toNat < 5 ∨ 250 < h.toNat ∨ w.toNat < 2 ∨ 10 < w.toNat) :
    readMode mode h w g = none := if_neg (by omega)

theorem reqSetChainMode_at {chain mode h w g : Byte} {c : Fin 4} (hc : chain.toNat = c.val) (h5 : 5 ≤ h.toNat)
    (h250 : h.toNat ≤ 250) (w2 : 2 ≤ w.toNat) (w10 : w.toNat ≤ 10) (s : State) :
    reqSetChainMode chain mode h w g s = answerDone data10 ({ s with setup := s.setup.withMode c (modeOf mode h w g) }.act
      (changeMode c (s.setup.modes.get c) (modeOf mode h w g))) := by
  unfold reqSetChainMode
  rw [indexOf_eq_some.2 hc, readMode_in h5 h250 w2 w10]
  rfl

/-- R119: with the guard alone changed, the runout of both ports is evaluated. -/
theorem changeMode_guard {c : Fin 4} {old new : ChainMode} (armed : new.armed = old.armed) (fallback : new.fallback = old.fallback)
    (guard : new.runoutGuard ≠ old.runoutGuard) (e : Env) (r : Run) :
    changeMode c old new e r = evaluatePorts e false c r := by
  unfold changeMode
  have changed : (old.runoutGuard != new.runoutGuard || old.fallback != new.fallback) = true := by simp [Ne.symm guard]
  have disarmed : (old.armed && !new.armed) = false := by rw [armed, Bool.and_not_self]
  have turned : (!old.fallback && new.fallback) = false := by rw [fallback, Bool.not_and_self]
  dsimp only
  rw [disarmed, changed, turned]
  rfl

section
variable {e : Env} {c : Fin 4} {p : Fin 8} {r : Run}

theorem portPositions_zero {su : Setup} (h : portPosition su c .zero = some p) :
    portPositions su c = p :: (portPosition su c .one).toList := by
  unfold portPositions
  rw [h]
  rfl

theorem portPositions_one {su : Setup} (h : portPosition su c .one = some p) :
    portPositions su c = (portPosition su c .zero).toList ++ [p] := by
  unfold portPositions
  rw [h]
  rfl

/-- R121: both ports evaluated, one position stopped and the other, if there is one, not past runout. -/
theorem evaluatePorts_stops {z : Port} {d : PosDef} (single : PortsSingle e.setup) (hc : chainOf e.setup p = some (c, z))
    (hd : e.setup.positions.get p = some d) (past : pastRunout e.setup r c p = true) (offAir : isOnAir e.setup r p = false)
    (runs : (r.motions.get p).motion = .runup ∨ (r.motions.get p).motion = .locked) (fresh : r.tailStopped.get p = false)
    (free : ¬ ((r.chains.get c).state = .switching ∧ (r.chains.get c).target = some (z.input, .change)))
    (still : ∀ q, portPosition e.setup c z.other = some q → pastRunout e.setup r c q = false) :
    ∃ raised stopped, evaluatePorts e false c r = { r with
      orders := enqueueOrder d.station .dowserClose (enqueueOrder d.station .stop r.orders)
      runoutRaised := raised, tailStopped := stopped } ∧ stopped.get p = true := by
  have port := chainOf_port hc
  have stops : ∀ (raised stopped : Vector Bool 8), stopped.get p = false →
      evaluateRunout e false p { r with runoutRaised := raised, tailStopped := stopped } = { r with
        orders := enqueueOrder d.station .dowserClose (enqueueOrder d.station .stop r.orders)
        runoutRaised := raised, tailStopped := stopped.set p true } := fun raised stopped clear =>
    (evaluateRunout_offAir (r := { r with runoutRaised := raised, tailStopped := stopped }) hc past offAir).trans
      (tailStop_stops (r := { r with runoutRaised := raised, tailStopped := stopped }) hd runs clear free)
  have set_p : ∀ v : Vector Bool 8, (v.set p true).get p = true := fun v => (get_set_fin ..).trans (if_pos rfl)
  have other_clears : ∀ q, portPosition e.setup c z.other = some q → q ≠ p ∧ ∀ x : Run, x.motions = r.motions →
      evaluateRunout e false q x = clearFlags q x := by
    intro q hq
    have there := chainOf_of_port single hq
    refine ⟨fun same => ?_, fun x motions => ?_⟩
    · subst same
      exact Port.other_ne z (Prod.mk.inj (Option.some.inj (there.symm.trans hc))).2
    · exact evaluateRunout_still there ((pastRunout_congr motions c q).trans (still q hq))
  unfold evaluatePorts
  cases z with
  | zero =>
    rw [portPositions_zero port, List.foldl_cons, show evaluateRunout e false p r = _ from stops r.runoutRaised r.tailStopped fresh]
    cases hq : portPosition e.setup c .one with
    | none => exact ⟨_, _, rfl, set_p _⟩
    | some q =>
      obtain ⟨apart, clears⟩ := other_clears q hq
      refine ⟨_, _, clears _ rfl, (get_set_fin ..).trans ((if_neg apart).trans (set_p _))⟩
  | one =>
    rw [portPositions_one port, List.foldl_append, List.foldl_cons, List.foldl_nil]
    cases hq : portPosition e.setup c .zero with
    | none => exact ⟨_, _, stops r.runoutRaised r.tailStopped fresh, set_p _⟩
    | some q =>
      obtain ⟨apart, clears⟩ := other_clears q hq
      refine ⟨r.runoutRaised.set q false, (r.tailStopped.set q false).set p true, ?_, set_p _⟩
      have cleared : (some q).toList.foldl (fun r p => evaluateRunout e false p r) r = clearFlags q r := clears r rfl
      rw [cleared]
      exact stops _ _ ((get_set_fin ..).trans ((if_neg apart).trans fresh))

end

end Sys2Proof.Machine

namespace Sys2Proof.Proofs

open Sys2Proof.Machine

/-- Settles O34: the guard in each state of the chain, and the tail stop of the position off air. -/
theorem runoutGuarded : Obligations.RunoutGuarded := by
  intro tag position p c z s ha hr hq single hp was onFilm isPast clear
  constructor
  · intro flags w still inside last past ends raises
    have answered := (answerManage_setReel tag position flags w s).trans
      ((reqSetReel_at hp inside s).trans (if_neg (Bool.eq_false_iff.1 still)))
    have passes : pastRunout (s.setup.withLast p last) s.run c p = true ↔ past := by
      rw [pastRunout_iff, withLast_lastPicture]
      rfl
    have leaves : ∀ r, evaluateRunout { setup := s.setup.withLast p last, sweep := s.port.sweep } false p s.run = r →
        r.handoffs = s.run.handoffs → r.slots = s.run.slots → ends r :=
      fun r acted handoffs slots => coded_leaves (n := 10) (tag := tag) ha hr answered acted (handoffs.trans hq) slots
    have raising : ∀ orders y, evaluateRunout { setup := s.setup.withLast p last, sweep := s.port.sweep } false p s.run =
        { s.run with
          slots := (raiseChain s.env (slotRunout c) s.run).slots, orders := orders, chains := s.run.chains.set c y
          runoutRaised := s.run.runoutRaised.set p true } → raises orders y := by
      intro orders y acted
      obtain ⟨t, next, _, right, _, _, run⟩ := coded_acted (n := 10) (tag := tag) ha answered acted hq
      obtain ⟨raised, alone⟩ := raised_alone (s := s) (t := t) (k := slotRunout c) (v := none) (x := none) (r0 := s.run) rfl
        (by rw [run]; rfl)
      exact ⟨t, next, right, raised, alone, by rw [run]⟩
    refine ⟨fun alone => ?_, fun chained short => ?_, fun chained beyond onAir => ?_⟩
    · exact leaves _ (evaluateRunout_alone alone) rfl rfl
    · exact leaves _ (evaluateRunout_still (r := s.run) chained (Bool.eq_false_iff.2 fun h => short (passes.1 h))) rfl rfl
    · have guarded : evaluateRunout { setup := s.setup.withLast p last, sweep := s.port.sweep } false p s.run =
          guardRunout { setup := s.setup.withLast p last, sweep := s.port.sweep } false c p s.run :=
        evaluateRunout_onAir chained (passes.2 beyond) onAir
      have unswitched : s.run.chains.set c was = s.run.chains := set_get_self ..
      have stands : s.run.runoutRaised.get p = true →
          raiseRunout { setup := s.setup.withLast p last, sweep := s.port.sweep } c p s.run = s.run := raiseRunout_stands
      have raised : s.run.runoutRaised.get p = false →
          raiseRunout { setup := s.setup.withLast p last, sweep := s.port.sweep } c p s.run = { s.run with
            slots := (raiseChain s.env (slotRunout c) s.run).slots
            runoutRaised := s.run.runoutRaised.set p true } := raiseRunout_fresh
      refine ⟨fun switching => ?_, fun holding lowered => ?_, fun holding up => ?_, fun film off => ⟨fun lowered => ?_, fun up => ?_⟩,
        fun d hd film on => ⟨fun lowered => ?_, fun up => ?_⟩⟩
      · exact leaves _ (guarded.trans (guardRunout_idle (by
          refine ⟨?_, ?_, ?_⟩ <;> exact fun h => nomatch switching.symm.trans h))) rfl rfl
      · refine raising _ _ (guarded.trans ((guardRunout_holding holding).trans ((raised lowered).trans ?_)))
        rw [unswitched]
      · exact leaves _ (guarded.trans ((guardRunout_holding holding).trans (stands up))) rfl rfl
      · refine raising _ _ (guarded.trans ((guardRunout_film film).trans
          ((if_neg (Bool.eq_false_iff.1 off)).trans ((raised lowered).trans ?_))))
        rw [unswitched]
      · exact leaves _ (guarded.trans ((guardRunout_film film).trans
          ((if_neg (Bool.eq_false_iff.1 off)).trans (stands up)))) rfl rfl
      · refine raising _ _ (guarded.trans ((guardRunout_film film).trans ((if_pos on).trans ?_)))
        rw [raised lowered]
        exact switchTo_fresh hd _ _
      · refine leaves _ (guarded.trans ((guardRunout_film film).trans ((if_pos on).trans ?_))) rfl rfl
        rw [stands up]
        exact switchTo_fresh hd _ _
  · intro chain mode h w g d hc h5 h250 w2 w10 armed fallback guard chained hd offAir runs beyond fresh free others
    have answered : answerManage (payload13 4 tag chain mode h w g) s = _ := reqSetChainMode_at hc h5 h250 w2 w10 s
    have passes : ∀ q, pastRunout (s.setup.withMode c (modeOf mode h w g)) s.run c q = true ↔
        isPast (s.setup.reels.get q).lastPicture g.toNat q := by
      intro q
      rw [pastRunout_iff, withMode_mode]
      rfl
    obtain ⟨raised, stopped, worked, stops⟩ := evaluatePorts_stops (e := {
        setup := s.setup.withMode c (modeOf mode h w g), sweep := s.port.sweep }) (r := s.run) single chained hd ((passes p).2 beyond) offAir runs fresh
      free fun q port => Bool.eq_false_iff.2 fun past => others q port ((passes q).1 past)
    obtain ⟨t, next, _, _, _, _, run⟩ := coded_acted (n := 4) (tag := tag) ha answered
      ((changeMode_guard armed fallback guard _ _).trans worked) hq
    exact ⟨t, next, by rw [run], by rw [run]; exact stops⟩

end Sys2Proof.Proofs
end

section
/-! PROOFS. Reels with nothing to take, and a loss that stands answered (for O33, O46, O58). -/

namespace Sys2Proof.Machine

/-! ### Nothing to take (R83, R84) -/

/-- An evaluation event brings the reel nothing. -/
def Nothing (su : Setup) (r : Run) (p : Fin 8) : Prop :=
  scanned su r p = false ∨ cursorRecord su r p = none
    ∨ ∃ b, cursorRecord su r p = some (some b) ∧ (r.scans.get p).hold = .none ∧ (r.scans.get p).met = none
      ∧ triggerMet b (r.motions.get p).value (r.scans.get p).marks = none

section
variable {e : Env} {r : Run} {p : Fin 8} {c : Fin 4} {z : Port}

theorem evaluate_nothing {ev : CueEvent} (h : Nothing e.setup r p) : evaluate e ev p r = r := by
  rcases h with idle | ended | ⟨b, record, unheld, unmet, waits⟩
  · exact evaluate_unscanned idle
  · exact evaluate_end (.inr ended)
  · unfold evaluate
    split
    · exact walk_stops (takeRecord_stays record (takeCue_unmet unheld unmet waits))
    · rfl

theorem Nothing.congr {su : Setup} {a b : Run} (h : Nothing su a p) (scan : b.scans.get p = a.scans.get p)
    (motions : b.motions = a.motions) (handoffs : b.handoffs = a.handoffs) : Nothing su b p := by
  unfold Nothing
  rw [scanned_congr motions handoffs, cursorRecord_congr (su := su) (a := b) (b := a) (p := p) (by rw [scan]), scan, motions]
  exact h

/-- A reel at the end of its list. -/
theorem Nothing.of_end {su : Setup} (h : (r.scans.get p).cursor = listLength su p) : Nothing su r p :=
  .inr (.inl (cursorRecord_end h))

theorem evaluateBoth_nothing {ev : CueEvent} (h : ∀ a z, portPosition e.setup c z = some a → Nothing e.setup r a) :
    evaluateBoth e ev c r = r :=
  foldl_fixed fun a ha => by
    obtain ⟨z, port⟩ := mem_portPositions.1 ha
    exact evaluate_nothing (h a z port)

/-- An event for both reels of which the other port's has nothing to take. -/
theorem evaluateBoth_beside {ev : CueEvent} {r' : Run} (single : PortsSingle e.setup) (hc : chainOf e.setup p = some (c, z))
    (others : ∀ q, portPosition e.setup c z.other = some q → Nothing e.setup r q) (walked : evaluate e ev p r = r')
    (scans : ∀ q, q ≠ p → r'.scans.get q = r.scans.get q) (motions : r'.motions = r.motions)
    (handoffs : r'.handoffs = r.handoffs) : evaluateBoth e ev c r = r' := by
  refine (foldl_alone (portPositions_nodup (c := c) single) (mem_portPositions.2 ⟨z, chainOf_port hc⟩)
    fun a ha apart => ?_).trans walked
  obtain ⟨y, port⟩ := mem_portPositions.1 ha
  have idle : Nothing e.setup r a := by
    rcases Port.eq_or_other z y with rfl | rfl
    · exact absurd (Option.some.inj (port.symm.trans (chainOf_port hc))) apart
    · exact others a port
  rw [walked]
  exact ⟨evaluate_nothing idle, evaluate_nothing (idle.congr (scans a apart) motions handoffs)⟩

/-! ### A loss that stands (R117, R118) -/

theorem onAirPosition_of_isOnAir {su : Setup} (hc : chainOf su p = some (c, z)) (h : isOnAir su r p = true) :
    onAirPosition su r c = some p := by
  unfold isOnAir at h
  rw [hc] at h
  exact beq_iff_eq.1 h

theorem observed_of_isOnAir {su : Setup} (single : PortsSingle su) (hc : chainOf su p = some (c, z))
    (h : isOnAir su r p = true) :
    (r.chains.get c).observed = some z.input ∧ (su.positions.get p).isSome = true := by
  obtain ⟨y, observed, port, defined⟩ := onAirPosition_eq_some.1 (onAirPosition_of_isOnAir hc h)
  obtain ⟨-, rfl⟩ := single.unique port (chainOf_port hc)
  exact ⟨observed, defined⟩

theorem unbroken_of_running {m : Motion} (h : m.running = true) : m ≠ .broken := by
  rintro rfl
  exact nomatch h

theorem lossStands_iff {su : Setup} (onAir : onAirPosition su r c = some p) :
    lossStands su r c = true ↔ ((r.motions.get p).motion ≠ .runup ∧ (r.motions.get p).motion ≠ .locked)
      ∨ (r.motions.get p).silent = true ∨ (r.lamps.get p).fault = true := by
  obtain ⟨y, _, _, defined⟩ := onAirPosition_eq_some.1 onAir
  have stands : (r.motions.get p).motion.running = true ↔
      ¬ ((r.motions.get p).motion ≠ .runup ∧ (r.motions.get p).motion ≠ .locked) := by
    rw [running_iff, Classical.not_and_iff_not_or_not, Classical.not_not, Classical.not_not]
  unfold lossStands
  rw [onAir]
  dsimp only
  unfold motionOf
  cases runs : (r.motions.get p).motion.running with
  | false =>
    simp only [Bool.not_false, Bool.or_true, true_iff]
    refine .inl ?_
    refine Classical.byContradiction fun h => ?_
    exact nomatch runs.symm.trans (stands.2 h)
  | true =>
    rw [Bool.not_true, Bool.or_false, beq_iff_eq]
    constructor
    · intro faulted
      refine Classical.byContradiction fun sound => ?_
      rw [roleOf_sound defined fun h => sound (.inr (h.resolve_left (unbroken_of_running runs)))] at faulted
      split at faulted
      · exact nomatch faulted
      · split at faulted
        · exact nomatch faulted
        · split at faulted
          · exact nomatch faulted
          · split at faulted <;> exact nomatch faulted
    · exact fun h => roleOf_faulted defined (.inr (h.resolve_left (stands.1 runs)))

/-- R102: a NEXT position stands by for the position on air. -/
theorem standsBy_of_next {su : Setup} {q : Fin 8} (single : PortsSingle su) (hc : chainOf su p = some (c, z))
    (onAir : onAirPosition su r c = some p) (port : portPosition su c z.other = some q) (h : roleOf su r q = .next) :
    StandsBy su r p q := by
  have defined : (su.positions.get q).isSome = true := by
    cases hq : su.positions.get q with
    | none => exact nomatch (roleOf_undefined hq).symm.trans h
    | some d => rfl
  have sound : ¬ ((r.motions.get q).motion = .broken ∨ (r.motions.get q).silent = true ∨ (r.lamps.get q).fault = true) :=
    fun faults => nomatch (roleOf_faulted defined faults).symm.trans h
  have pair : pairValid su c = true := by
    rw [roleOf_sound defined sound, chainOf_of_port single port] at h
    dsimp only at h
    rw [onAir] at h
    dsimp only at h
    split at h
    · exact nomatch h
    · split at h
      · assumption
      · exact nomatch h
  obtain ⟨unbroken, rest⟩ := not_or.1 sound
  obtain ⟨shown, unfaulted⟩ := not_or.1 rest
  refine ⟨?_, unbroken, Bool.eq_false_iff.2 shown, Bool.eq_false_iff.2 unfaulted⟩
  unfold partnerOf
  rw [hc]
  exact (if_pos pair).trans port

end

/-- R117: the reaction of a chain in SINGLE or DOUBLE with Fallback on. -/
theorem reactToLoss_answers {s : State} {p : Fin 8} {c : Fin 4} {z : Port} {d : ChainDef} {i : Input} {k : SwitchKind}
    {keep : Bool} (single : PortsSingle s.setup) (hc : chainOf s.setup p = some (c, z)) (hd : s.setup.chains.get c = some d)
    (onAir : isOnAir s.setup s.run p = true)
    (film : (s.run.chains.get c).state = .single ∨ (s.run.chains.get c).state = .double)
    (fallback : (s.setup.modes.get c).fallback = true) (answer : LossAnswer s c z p i k) :
    let switched : Run := { s.run with
      orders := enqueueOrder d.station (.select i) s.run.orders
      chains := s.run.chains.set c ((s.run.chains.get c).switched i k
        (if keep then (s.run.chains.get c).holdSweeps else 0)) }
    (k = .change ∨ (∀ q, IsNext s p q → (s.run.lamps.get q).lamp ≠ .dark) → reactToLoss s.env c p keep s.run = switched)
    ∧ (∀ q, k = .fallback → IsNext s p q → (s.run.lamps.get q).lamp = .dark → s.run.gate ≠ .free →
      reactToLoss s.env c p keep s.run = { switched with
        strikeQueue := s.run.strikeQueue ++ [{ position := q, cls := .urgent }]
        lamps := s.run.lamps.set q { s.run.lamps.get q with lamp := .queued } }) := by
  intro switched
  have air := onAirPosition_of_isOnAir hc onAir
  have observed := (observed_of_isOnAir single hc onAir).1
  have next_of : ∀ q, IsNext s p q → nextOf s.env.setup s.run c = some q := fun q next => nextOf_standsBy single hc air next
  rcases answer with ⟨rfl, rfl, q, next, readies⟩ | ⟨rfl, rfl, unready⟩
  · refine ⟨fun _ => ?_, fun _ other => nomatch other⟩
    exact reactToLoss_ready (e := s.env) film fallback hd (next_of q next)
      (chainOf_of_port single (partner_port hc next.1)) observed readies
  · refine ⟨fun lit => ?_, fun q _ next dark busy => ?_⟩
    · by_cases some_next : ∃ q, IsNext s p q
      · obtain ⟨q, next⟩ := some_next
        refine (reactToLoss_unready (e := s.env) film fallback hd (next_of q next) (unready q next)).trans ?_
        exact strikeRequest_lit (lit.elim (fun h => nomatch h) fun h => h q next)
      · exact reactToLoss_alone (e := s.env) film fallback hd (nextOf_none hc air fun q port next =>
          some_next ⟨q, standsBy_of_next single hc air port next⟩)
    · refine (reactToLoss_unready (e := s.env) film fallback hd (next_of q next) (unready q next)).trans ?_
      exact strikeRequest_joins (e := s.env) (defined_of_partner hc next.1) (by exact dark) (by exact busy)

section
variable {e : Env} {c : Fin 4} {r : Run}

/-- R118: nothing is on air, or no loss stands. -/
theorem reapplyLoss_none (h : onAirPosition e.setup r c = none ∨ lossStands e.setup r c = false) : reapplyLoss e c r = r := by
  unfold reapplyLoss
  rcases h with h | h
  · rw [h]
  · rw [h]
    split <;> rfl

theorem reapplyLoss_off (h : ¬ ((r.chains.get c).state = .single ∨ (r.chains.get c).state = .double)
      ∨ (e.setup.modes.get c).fallback = false) : reapplyLoss e c r = r := by
  unfold reapplyLoss
  split
  · split
    · exact reactToLoss_off h
    · rfl
  · rfl

theorem reapplyLoss_stands {p : Fin 8} (onAir : onAirPosition e.setup r c = some p) (h : lossStands e.setup r c = true) :
    reapplyLoss e c r = reactToLoss e c p false r := by
  unfold reapplyLoss
  rw [onAir]
  exact if_pos h

end

end Sys2Proof.Machine
end

section
/-! PROOFS. SET CHAIN MODE (O33). -/

namespace Sys2Proof.Machine

section
variable {e : Env} {p : Fin 8} {c : Fin 4} {z : Port} {r : Run} {b : Cue}

/-! ### The disarming (R95) -/

/-- How a record whose trigger is met completes in a disarmed chain. -/
def disarmedOutcome (su : Setup) (c : Fin 4) (a : Action) : CueOutcome :=
  if a = .announce then .done else if a.needsPartner = true ∧ pairValid su c = false then .void else .suppressed

theorem takeAction_disarmed (hc : chainOf e.setup p = some (c, z)) (off : (e.setup.modes.get c).armed = false) (a : Action) :
    takeAction e p a r = (r, some (disarmedOutcome e.setup c a)) := by
  have partnered : a.asksChain = true → a ≠ .announce → takePartnerAction e p a r = (r, some (disarmedOutcome e.setup c a)) := by
    intro asks loud
    unfold disarmedOutcome
    rw [if_neg loud]
    by_cases unpaired : a.needsPartner = true ∧ pairValid e.setup c = false
    · rw [if_pos unpaired]
      exact takePartnerAction_unpaired hc unpaired.1 unpaired.2
    · rw [if_neg unpaired]
      refine takePartnerAction_suppressed hc (fun needs => ?_) (.inr off)
      refine Classical.byContradiction fun pair => ?_
      exact unpaired ⟨needs, Bool.eq_false_iff.2 pair⟩
  have idle : disarmed e.setup p = true := by
    rw [disarmed_at hc, off]
    rfl
  cases a with
  | announce => rfl
  | lampDown | tailStop => exact takeOwnAction_disarmed idle
  | preroll | change | lampPartner | caption => exact partnered rfl nofun

/-- R83, R97: the record at the cursor, the last of its list, completed. -/
theorem evaluate_last {ev : CueEvent} {how : CueOutcome} {r1 : Run} (scans : scanned e.setup r p = true)
    (reaches : reachesReel e ev p r = true) (record : cursorRecord e.setup r p = some (some b))
    (last : (r.scans.get p).cursor + 1 = listLength e.setup p) (room : r.notices.length < 16)
    (taken : takeCue e ev p b r = (r1, some how)) (cursor : (r1.scans.get p).cursor = (r.scans.get p).cursor)
    (notices : r1.notices = r.notices) : evaluate e ev p r = { r1 with
      scans := r1.scans.set p (r1.scans.get p).passed
      notices := r.notices ++
        [{ sweep := e.sweep
           body := .cue p b.tag b.action how ((r1.scans.get p).met == some true) (r1.motions.get p).value }] } := by
  rw [evaluate_completes scans reaches record taken (by rw [cursor]; exact last),
    complete_room b how (by rw [notices]; exact room), notices]

theorem takeCue_waiting {ev : CueEvent} (waits : (r.scans.get p).hold = .wait) :
    takeCue e ev p b r = takeOwnAction e p b.action r := by
  unfold takeCue
  dsimp only
  rw [waits]

theorem takeCue_deferred {ev : CueEvent} {y : Bool} (unheld : (r.scans.get p).hold = .none)
    (met : (r.scans.get p).met = some y) : takeCue e ev p b r = takeAction e p b.action r := by
  unfold takeCue
  dsimp only
  rw [unheld, met]

/-- R91: the end of a HOLD at a change, with the position off air or its chain disarmed. -/
theorem takeCue_suppressed {q : Fin 8} (hc : chainOf e.setup p = some (c, z)) (partner : partnerOf e.setup p = some q)
    (held : (r.scans.get p).hold = .hold)
    (ends : isOnAir e.setup (notePartnerRan p q r) p = false ∨ (e.setup.modes.get c).armed = false) :
    takeCue e .change p b r = (holdEnd e c p .suppressed (notePartnerRan p q r), some .suppressed) := by
  unfold takeCue
  dsimp only
  rw [held]
  unfold takeHeld
  rw [hc, partner]
  refine if_pos ?_
  rcases ends with h | h
  · rw [h]; rfl
  · rw [h, Bool.not_false, Bool.or_true]

theorem noteMet_raises (hc : chainOf e.setup p = some (c, z)) : noteMet e p true r =
    raiseChain e (slotMarkMissing c) (r.modScan p (fun x => { x with met := some true })) := by
  unfold noteMet raiseMarkMissing
  rw [hc]
  rfl

theorem modScan_get_self (f : ScanRec → ScanRec) : (r.modScan p f).scans.get p = f (r.scans.get p) := by
  rw [Run.modScan_get, if_pos rfl]

/-- The run after the record at the cursor has completed, nothing else touched. -/
def completedRun (e : Env) (p : Fin 8) (b : Cue) (how : CueOutcome) (byBackstop : Bool) (r : Run) : Run :=
  { r with
    scans := r.scans.set p (r.scans.get p).passed
    notices := r.notices ++
      [{ sweep := e.sweep, body := .cue p b.tag b.action how byBackstop (r.motions.get p).value }] }

/-- What an action without effect leaves of a record whose trigger has been noted. -/
theorem completed_of_noted (f : ScanRec → ScanRec) (same : (f (r.scans.get p)).passed = (r.scans.get p).passed)
    (how : CueOutcome) {byBackstop : Bool} (mark : ((f (r.scans.get p)).met == some true) = byBackstop) : ({ r.modScan p f with
      scans := (r.modScan p f).scans.set p ((r.modScan p f).scans.get p).passed
      notices := r.notices ++
        [{ sweep := e.sweep
           body := .cue p b.tag b.action how (((r.modScan p f).scans.get p).met == some true)
             ((r.modScan p f).motions.get p).value }] } : Run) =
    completedRun e p b how byBackstop r := by
  rw [modScan_get_self, same, mark]
  unfold completedRun Run.modScan
  dsimp only
  rw [Vector.set_set]

end

/-! ### A change of mode, by what it changes (R124) -/

theorem changeMode_disarms {c : Fin 4} {old new : ChainMode} (was : old.armed = true) (off : new.armed = false)
    (fallback : new.fallback = old.fallback) (guard : new.runoutGuard = old.runoutGuard) (e : Env) (r : Run) :
    changeMode c old new e r = evaluateBoth e .change c r := by
  have unchanged : (old.runoutGuard != new.runoutGuard || old.fallback != new.fallback) = false := by simp [guard, fallback]
  have turned : (!old.fallback && new.fallback) = false := by rw [fallback, Bool.not_and_self]
  have disarmed : (old.armed && !new.armed) = true := by rw [was, off]; rfl
  unfold changeMode
  dsimp only
  rw [disarmed, unchanged, turned]
  rfl

theorem changeMode_falls {c : Fin 4} {old new : ChainMode} (armed : old.armed = true → new.armed = true)
    (was : old.fallback = false) (on : new.fallback = true) (e : Env) (r : Run) :
    changeMode c old new e r = reapplyLoss e c (evaluatePorts e false c r) := by
  have changed : (old.runoutGuard != new.runoutGuard || old.fallback != new.fallback) = true := by simp [was, on]
  have turned : (!old.fallback && new.fallback) = true := by rw [was, on]; rfl
  have disarmed : (old.armed && !new.armed) = false := by
    cases h : old.armed with
    | false => rfl
    | true => rw [armed h]; rfl
  unfold changeMode
  dsimp only
  rw [disarmed, changed, turned]
  rfl

theorem reqSetChainMode_range {chain mode h w g : Byte} {s : State}
    (out : 3 < chain.toNat ∨ h.toNat < 5 ∨ 250 < h.toNat ∨ w.toNat < 2 ∨ 10 < w.toNat) :
    reqSetChainMode chain mode h w g s = refuse .range s := by
  unfold reqSetChainMode
  rcases out with above | out
  · rw [indexOf_eq_none.2 above]
  · rw [readMode_out out]
    cases indexOf 4 chain <;> rfl

/-! ### Fallback turned on (R117 to R120) -/

section
variable {e : Env} {p : Fin 8} {c : Fin 4} {z : Port} {r : Run}

/-- R119: both ports evaluated, the other port's position not past runout. -/
theorem evaluatePorts_beside {keep : Bool} (single : PortsSingle e.setup) (hc : chainOf e.setup p = some (c, z))
    (still : ∀ q, portPosition e.setup c z.other = some q → pastRunout e.setup r c q = false) :
    evaluatePorts e keep c r = evaluateRunout e keep p r
      ∨ ∃ q, q ≠ p ∧ (evaluatePorts e keep c r = clearFlags q (evaluateRunout e keep p r)
        ∨ evaluatePorts e keep c r = evaluateRunout e keep p (clearFlags q r)) := by
  have port := chainOf_port hc
  have other_clears : ∀ q, portPosition e.setup c z.other = some q → q ≠ p ∧ ∀ x : Run, x.motions = r.motions →
      evaluateRunout e keep q x = clearFlags q x := by
    intro q hq
    have there := chainOf_of_port single hq
    refine ⟨fun same => ?_, fun x motions => ?_⟩
    · subst same
      exact Port.other_ne z (Prod.mk.inj (Option.some.inj (there.symm.trans hc))).2
    · exact evaluateRunout_still there ((pastRunout_congr motions c q).trans (still q hq))
  unfold evaluatePorts
  cases z with
  | zero =>
    rw [portPositions_zero port, List.foldl_cons]
    cases hq : portPosition e.setup c .one with
    | none => exact .inl rfl
    | some q =>
      obtain ⟨apart, clears⟩ := other_clears q hq
      exact .inr ⟨q, apart, .inl (clears _ (evaluateRunout_side (c := c) keep p (.refl r)).motions)⟩
  | one =>
    rw [portPositions_one port, List.foldl_append, List.foldl_cons, List.foldl_nil]
    cases hq : portPosition e.setup c .zero with
    | none => exact .inl rfl
    | some q =>
      obtain ⟨apart, clears⟩ := other_clears q hq
      have cleared : (some q).toList.foldl (fun r p => evaluateRunout e keep p r) r = clearFlags q r := clears r rfl
      rw [cleared]
      exact .inr ⟨q, apart, .inr rfl⟩

theorem raiseRunout_eq : raiseRunout e c p r = { r with
    slots := if r.runoutRaised.get p then r.slots else (raiseChain e (slotRunout c) r).slots
    runoutRaised := r.runoutRaised.set p true } := by
  cases up : r.runoutRaised.get p with
  | true =>
    have same : r.runoutRaised.set p true = r.runoutRaised := by
      conv => rhs; rw [← set_get_self r.runoutRaised p, up]
    rw [raiseRunout_stands up, same]
    rfl
  | false => exact raiseRunout_fresh up

/-- R120: the guard of a chain in SINGLE or DOUBLE with Fallback on. -/
theorem evaluateRunout_falls {d : ChainDef} (hc : chainOf e.setup p = some (c, z)) (hd : e.setup.chains.get c = some d)
    (past : pastRunout e.setup r c p = true) (onAir : isOnAir e.setup r p = true)
    (film : (r.chains.get c).state = .single ∨ (r.chains.get c).state = .double)
    (fallback : (e.setup.modes.get c).fallback = true) : evaluateRunout e false p r = { r with
      slots := if r.runoutRaised.get p then r.slots else (raiseChain e (slotRunout c) r).slots
      runoutRaised := r.runoutRaised.set p true
      orders := enqueueOrder d.station (.select (fallbackInput e.setup c)) r.orders
      chains := r.chains.set c ((r.chains.get c).switched (fallbackInput e.setup c) .fallback 0) } := by
  rw [evaluateRunout_onAir hc past onAir, guardRunout_film film, if_pos fallback, raiseRunout_eq]
  exact switchTo_fresh hd _ _

/-- The same with the other port evaluated too: its flags alone may change. -/
theorem evaluatePorts_falls {d : ChainDef} (single : PortsSingle e.setup) (hc : chainOf e.setup p = some (c, z))
    (hd : e.setup.chains.get c = some d) (past : pastRunout e.setup r c p = true) (onAir : isOnAir e.setup r p = true)
    (film : (r.chains.get c).state = .single ∨ (r.chains.get c).state = .double)
    (fallback : (e.setup.modes.get c).fallback = true)
    (still : ∀ q, portPosition e.setup c z.other = some q → pastRunout e.setup r c q = false) :
    ∃ raised stopped, evaluatePorts e false c r = { r with
      slots := if r.runoutRaised.get p then r.slots else (raiseChain e (slotRunout c) r).slots
      runoutRaised := raised, tailStopped := stopped
      orders := enqueueOrder d.station (.select (fallbackInput e.setup c)) r.orders
      chains := r.chains.set c ((r.chains.get c).switched (fallbackInput e.setup c) .fallback 0) }
      ∧ raised.get p = true := by
  have up : ∀ v : Vector Bool 8, (v.set p true).get p = true := fun v => (get_set_fin ..).trans (if_pos rfl)
  have falls := evaluateRunout_falls hc hd past onAir film fallback
  rcases evaluatePorts_beside (keep := false) single hc still with alone | ⟨q, apart, after | before⟩
  · exact ⟨_, _, alone.trans falls, up _⟩
  · refine ⟨(r.runoutRaised.set p true).set q false, r.tailStopped.set q false, ?_, ?_⟩
    · rw [after, falls]
      rfl
    · exact (get_set_fin ..).trans ((if_neg apart).trans (up _))
  · have kept : (clearFlags q r).runoutRaised.get p = r.runoutRaised.get p :=
      (get_set_fin ..).trans (if_neg apart)
    refine ⟨(r.runoutRaised.set q false).set p true, r.tailStopped.set q false,
      before.trans ((evaluateRunout_falls (r := clearFlags q r) hc hd past onAir film fallback).trans ?_), up _⟩
    have same : (raiseChain e (slotRunout c) (clearFlags q r)).slots = (raiseChain e (slotRunout c) r).slots :=
      raise_slots_congr rfl
    rw [kept, same]
    rfl

end

/-! ### The request whole (R124) -/

/-- The environment of the blocks once the mode is written. -/
def modeEnv (s : State) (c : Fin 4) (m : ChainMode) : Env := { setup := s.setup.withMode c m, sweep := s.port.sweep }

/-- What an accepted SET CHAIN MODE leaves outside the run. -/
def ModeLeaves (s : State) (tag chain mode h w g : Byte) (c : Fin 4) (t : State) : Prop :=
  exec (.setChainMode tag chain mode h w g) s = .next t
    ∧ t.port.loopOut = some (s.replyCell 4 tag 0 (Vector.replicate 10 0))
    ∧ t.setup = s.setup.withMode c (modeOf mode h w g)

section
variable {tag chain mode h w g : Byte} {c : Fin 4} {s : State} (ha : s.acting) (hq : s.quiet) (hc : chain.toNat = c.val)
  (h5 : 5 ≤ h.toNat) (h250 : h.toNat ≤ 250) (w2 : 2 ≤ w.toNat) (w10 : w.toNat ≤ 10)
include ha hq hc h5 h250 w2 w10

theorem setChainMode_leaves {r : Run}
    (acted : changeMode c (s.setup.modes.get c) (modeOf mode h w g) (modeEnv s c (modeOf mode h w g)) s.run = r)
    (handoffs : r.handoffs = s.run.handoffs) : ∃ t, ModeLeaves s tag chain mode h w g c t ∧ t.run = r := by
  have answered : answerManage (payload13 4 tag chain mode h w g) s = _ := reqSetChainMode_at hc h5 h250 w2 w10 s
  obtain ⟨t, next, port, _, setup, _, run⟩ := coded_acted (n := 4) (tag := tag) ha answered acted (handoffs.trans hq)
  exact ⟨t, ⟨next, by rw [port], setup⟩, run⟩

/-- R124: no motion record, observed selection or alarm under service changes. -/
theorem setChainMode_keeps : ∃ t, ModeLeaves s tag chain mode h w g c t ∧ t.run.motions = s.run.motions
    ∧ (∀ d, (t.run.chains.get d).observed = (s.run.chains.get d).observed) ∧ LadderKept s t := by
  have answered : answerManage (payload13 4 tag chain mode h w g) s = _ := reqSetChainMode_at hc h5 h250 w2 w10 s
  obtain ⟨t, next, port, _, setup, _, run⟩ := coded_answered (n := 4) (tag := tag) ha answered
  have acts : Acts (modeEnv s c (modeOf mode h w g)) false false s.run (changeMode c (s.setup.modes.get c) (modeOf mode h w g)
    (modeEnv s c (modeOf mode h w g)) s.run) := changeMode_acts c _ _ .refl
  have drained := drain_acts_quietly (e := modeEnv s c (modeOf mode h w g)) (obs := false)
    (acts.noMotionDue fun x hx => absurd (hq ▸ hx) List.not_mem_nil)
  have written : Written s (answerManage (payload13 4 tag chain mode h w g) s).state :=
    reqSetChainMode_written chain mode h w g s
  refine ⟨t, ⟨next, congrArg LoopPort.loopOut port, setup⟩, ?_, fun d => ?_, request_ladderKept next written⟩ <;> rw [run]
  · exact drained.motions.trans acts.motions
  · exact (drained.observed_same d).trans (acts.observed_same d)

end

section
variable {s : State} {c : Fin 4} {m : ChainMode} {p : Fin 8} {z : Port} {b : Cue}

/-- R84, R95: a trigger met at the disarming, BY BACKSTOP or not. -/
theorem evaluate_disarmed_fires {byBackstop : Bool} (hc : chainOf s.setup p = some (c, z)) (off : m.armed = false)
    (scans : scanned s.setup s.run p = true) (record : cursorRecord s.setup s.run p = some (some b))
    (last : (s.run.scans.get p).cursor + 1 = listLength s.setup p) (room : s.run.notices.length < 16)
    (unheld : (s.run.scans.get p).hold = .none) (unmet : (s.run.scans.get p).met = none)
    (met : triggerMet b (s.run.motions.get p).value (s.run.scans.get p).marks = some byBackstop) :
    evaluate (modeEnv s c m) .change p s.run = { completedRun s.env p b (disarmedOutcome s.setup c b.action) byBackstop s.run with
      slots := if byBackstop then (raiseChain s.env (slotMarkMissing c) s.run).slots else s.run.slots } := by
  have mode_off : ((modeEnv s c m).setup.modes.get c).armed = false := by
    show ((s.setup.withMode c m).modes.get c).armed = false
    rw [withMode_mode]
    exact off
  have taken := (takeCue_met (e := modeEnv s c m) (ev := .change) unheld unmet met).trans
    (takeAction_disarmed (e := modeEnv s c m) (z := z) hc mode_off b.action)
  have noted : noteMet (modeEnv s c m) p byBackstop s.run = { s.run.modScan p (fun x => { x with met := some byBackstop }) with
      slots := if byBackstop then (raiseChain s.env (slotMarkMissing c) s.run).slots else s.run.slots } := by
    cases byBackstop with
    | false => rfl
    | true =>
      have slots : (raiseChain (modeEnv s c m) (slotMarkMissing c)
          (s.run.modScan p (fun x => { x with met := some true }))).slots = (raiseChain s.env (slotMarkMissing c) s.run).slots :=
        raise_slots_congr (e := s.env) (k := slotMarkMissing c) (v := none) (x := none)
          (a := s.run.modScan p (fun x => { x with met := some true })) (b := s.run) rfl
      rw [noteMet_raises (e := modeEnv s c m) (z := z) hc, raiseChain_frame, slots]
      rfl
  rw [noted] at taken
  refine (evaluate_last (e := modeEnv s c m) scans rfl record last room taken ?_ rfl).trans ?_
  · have cursor : ((s.run.modScan p fun x => { x with met := some byBackstop }).scans.get p).cursor =
        (s.run.scans.get p).cursor := by rw [modScan_get_self]
    exact cursor
  · exact congrArg (fun r : Run => { r with
        slots := if byBackstop then (raiseChain s.env (slotMarkMissing c) s.run).slots else s.run.slots })
      (completed_of_noted (e := s.env) (r := s.run) (p := p) (b := b) (fun x => { x with met := some byBackstop }) rfl
        (disarmedOutcome s.setup c b.action) (byBackstop := byBackstop) (by cases byBackstop <;> rfl))

/-- R91, R95, R109: the record under HOLD at the disarming. -/
theorem evaluate_disarmed_held {q : Fin 8} {k : HoldKind} (single : PortsSingle s.setup)
    (hc : chainOf s.setup p = some (c, z)) (off : m.armed = false) (guard : m.runoutGuard = (s.setup.modes.get c).runoutGuard)
    (scans : scanned s.setup s.run p = true) (record : cursorRecord s.setup s.run p = some (some b))
    (last : (s.run.scans.get p).cursor + 1 = listLength s.setup p) (room : s.run.notices.length < 16)
    (held : (s.run.scans.get p).hold = .hold) (partner : partnerOf s.setup p = some q)
    (holding : (s.run.chains.get c).state = .holding) (holds : (s.run.chains.get c).hold = some (p, k))
    (observed : (s.run.chains.get c).observed = some z.input)
    (still : ∀ y a, portPosition s.setup c y = some a → pastRunout s.setup s.run c a = false) :
    ∃ raised stopped, evaluate (modeEnv s c m) .change p s.run = {
      completedRun s.env p b .suppressed ((s.run.scans.get p).met == some true) s.run with
        chains := s.run.chains.set c ((s.run.chains.get c).unheld m.holdLimit (StateFrom s c z.input))
        runoutRaised := raised, tailStopped := stopped } := by
  have mode : (modeEnv s c m).setup.modes.get c = m := withMode_mode s.setup c m
  have still' : ∀ y a, portPosition (modeEnv s c m).setup c y = some a →
      pastRunout (modeEnv s c m).setup (notePartnerRan p q s.run) c a = false := by
    intro y a port
    refine Eq.trans ?_ (still y a port)
    unfold pastRunout
    rw [mode, guard]
    rfl
  obtain ⟨raised, stopped, ended⟩ := holdEnd_derives (e := modeEnv s c m) (c := c) (r := notePartnerRan p q s.run) (p := p)
    (how := .suppressed) (m := (p, k)) trivial single still' holding holds
  have derived : derivedState (modeEnv s c m).setup (notePartnerRan p q s.run) c = StateFrom s c z.input :=
    derivedState_eq (s := s) (r := notePartnerRan p q s.run) observed rfl
  rw [mode, derived] at ended
  have taken := takeCue_suppressed (e := modeEnv s c m) (z := z) (b := b) hc partner held (.inr (by rw [mode]; exact off))
  rw [ended] at taken
  refine ⟨raised, stopped, (evaluate_last (e := modeEnv s c m) scans rfl record last room taken ?_ rfl).trans ?_⟩
  · have cursor : ((notePartnerRan p q s.run).scans.get p).cursor = (s.run.scans.get p).cursor := by
      unfold notePartnerRan
      rw [modScan_get_self]
    exact cursor
  · exact congrArg (fun r : Run => { r with
        chains := s.run.chains.set c ((s.run.chains.get c).unheld m.holdLimit (StateFrom s c z.input))
        runoutRaised := raised, tailStopped := stopped })
      (completed_of_noted (e := s.env) (r := s.run) (p := p) (b := b)
        (fun x => { x with partnerRan := x.partnerRan || (motionOf s.run q).running }) rfl .suppressed rfl)

/-- R117 to R120: Fallback turned on with nothing past runout. -/
theorem changeMode_still {old : ChainMode} (single : PortsSingle s.setup)
    (armed : old.armed = true → m.armed = true) (was : old.fallback = false) (on : m.fallback = true)
    (still : ∀ y a, portPosition s.setup c y = some a → pastRunout (s.setup.withMode c m) s.run c a = false) :
    ∃ raised stopped, changeMode c old m (modeEnv s c m) s.run =
      reapplyLoss (modeEnv s c m) c { s.run with runoutRaised := raised, tailStopped := stopped } := by
  have flags := evaluatePorts_flags (e := modeEnv s c m) (c := c) (keep := false) (r := s.run) single
    fun a y port => RunoutInert.of_still (still y a port)
  refine ⟨_, _, (changeMode_falls armed was on _ _).trans (congrArg (reapplyLoss (modeEnv s c m) c) flags.frame)⟩

end

end Sys2Proof.Machine

namespace Sys2Proof.Proofs

open Sys2Proof.Machine

/-- Settles O33: the disarming suppresses what it finds, the guard goes before the loss, and the loss is answered as R117
gives. -/
theorem setChainModeWrites : Obligations.SetChainModeWrites := by
  intro tag chain mode h w g s ha hr hq
  refine ⟨fun out => coded_refused (m := payload13 4 tag chain mode h w g) ha hr (reqSetChainMode_range out), ?_⟩
  intro c hc h5 h250 w2 w10 old new was leaves
  have left : ∀ {r : Run}, changeMode c old new (modeEnv s c new) s.run = r → r.handoffs = s.run.handoffs →
      ∃ t, leaves t ∧ t.run = r := setChainMode_leaves ha hq hc h5 h250 w2 w10
  refine ⟨setChainMode_keeps ha hq hc h5 h250 w2 w10, ?_, ?_⟩
  · intro p z single hz others armed off fallback guard x value
    have evaluated : ∀ {r : Run}, evaluate (modeEnv s c new) .change p s.run = r →
        (∀ q, q ≠ p → r.scans.get q = s.run.scans.get q) → r.motions = s.run.motions → r.handoffs = s.run.handoffs →
        ∃ t, leaves t ∧ t.run = r := by
      intro r walked scans motions handoffs
      refine left ((changeMode_disarms armed off fallback guard _ _).trans ?_) handoffs
      exact evaluateBoth_beside (e := modeEnv s c new) (p := p) (z := z) single hz others walked scans motions handoffs
    refine ⟨fun idle => evaluated (evaluate_nothing (e := modeEnv s c new) idle) (fun _ _ => rfl) rfl rfl, ?_⟩
    intro b scans record last room completed how
    have mode_off : ((modeEnv s c new).setup.modes.get c).armed = false := by
      show ((s.setup.withMode c new).modes.get c).armed = false
      rw [withMode_mode]
      exact off
    have elsewhere : ∀ (y : ScanRec) (q : Fin 8), q ≠ p → (s.run.scans.set p y).get q = s.run.scans.get q :=
      fun y q apart => (get_set_fin ..).trans (if_neg (Ne.symm apart))
    refine ⟨fun waits own => ?_, fun y unheld met => ?_, fun unheld unmet met => ?_, fun unheld unmet met => ?_,
      fun q k held partner holding holds observed still => ?_⟩
    · refine evaluated (evaluate_last (e := modeEnv s c new) (ev := .change) scans rfl record last room
        ((takeCue_waiting waits).trans (takeOwnAction_disarmed ?_)) rfl rfl) (elsewhere _) rfl rfl
      rw [disarmed_at (e := modeEnv s c new) (c := c) (z := z) hz, mode_off]
      rfl
    · have walked := evaluate_last (e := modeEnv s c new) (ev := .change) scans rfl record last room
        ((takeCue_deferred unheld met).trans (takeAction_disarmed (z := z) hz mode_off b.action)) rfl rfl
      have same : (some y == some true) = y := by cases y <;> rfl
      rw [met, same] at walked
      exact evaluated walked (elsewhere _) rfl rfl
    · exact evaluated (evaluate_disarmed_fires (m := new) (z := z) hz off scans record last room unheld unmet met)
        (elsewhere _) rfl rfl
    · obtain ⟨t, leaves, run⟩ := evaluated
        (evaluate_disarmed_fires (m := new) (z := z) hz off scans record last room unheld unmet met) (elsewhere _) rfl rfl
      obtain ⟨raised, alone⟩ := raised_alone (s := s) (t := t) (k := slotMarkMissing c) (v := none) (x := none) (r0 := s.run)
        rfl (by rw [run]; rfl)
      exact ⟨t, leaves, by rw [run]; rfl, raised, alone⟩
    · obtain ⟨raised, stopped, walked⟩ := evaluate_disarmed_held (m := new) single hz off guard scans record last room held
        partner holding holds observed still
      obtain ⟨t, leaves, run⟩ := evaluated walked (elsewhere _) rfl rfl
      exact ⟨t, leaves, by rw [run]; rfl⟩
  · intro p z d single hz hd onAir film fell on armed past others becomes select back
    have mode : (modeEnv s c new).setup.modes.get c = new := withMode_mode s.setup c new
    have passes : ∀ q, pastRunout (s.setup.withMode c new) s.run c q = true ↔ past q := by
      intro q
      rw [pastRunout_iff, withMode_mode]
      rfl
    have off_still : ∀ q, portPosition s.setup c z.other = some q → pastRunout (s.setup.withMode c new) s.run c q = false :=
      fun q port => Bool.eq_false_iff.2 fun h => others q port ((passes q).1 h)
    have air : ∀ raised stopped, onAirPosition (modeEnv s c new).setup
        { s.run with runoutRaised := raised, tailStopped := stopped } c = some p :=
      fun _ _ => onAirPosition_of_isOnAir (su := s.setup) (r := s.run) hz onAir
    have both_still : ¬ past p → ∀ y a, portPosition s.setup c y = some a →
        pastRunout (s.setup.withMode c new) s.run c a = false := by
      intro short y a port
      rcases Port.eq_or_other z y with rfl | rfl
      · obtain rfl := Option.some.inj (port.symm.trans (chainOf_port hz))
        exact Bool.eq_false_iff.2 fun h => short ((passes a).1 h)
      · exact off_still a port
    refine ⟨fun beyond => ?_, fun short sound => ?_, fun i k short stands answer => ?_⟩
    · obtain ⟨raised, stopped, fell', up⟩ := evaluatePorts_falls (e := modeEnv s c new) (r := s.run) single hz hd
        ((passes p).2 beyond) onAir film (by rw [mode]; exact on) off_still
      have done : changeMode c old new (modeEnv s c new) s.run = _ :=
        (changeMode_falls armed fell on _ _).trans ((congrArg (reapplyLoss (modeEnv s c new) c) fell').trans
          (reapplyLoss_off (.inl (by
            dsimp only
            rw [get_set_fin, if_pos rfl]
            rintro (h | h) <;> exact nomatch h))))
      obtain ⟨t, leaves, run⟩ := left done rfl
      have slots : t.run.slots = if s.run.runoutRaised.get p then s.run.slots
          else (raiseChain s.env (slotRunout c) s.run).slots := by rw [run]; rfl
      refine ⟨t, ⟨leaves, by rw [run]; rfl⟩, by rw [run]; exact up, fun lowered => ?_, fun stood => ?_, fun j other => ?_⟩
      · rw [lowered] at slots
        exact (raised_alone (x := none) (r0 := s.run) rfl slots).1
      · rw [stood] at slots
        exact slots
      · cases stood : s.run.runoutRaised.get p with
        | true => rw [stood] at slots; rw [slots]; rfl
        | false =>
          rw [stood] at slots
          exact (raised_alone (v := none) (x := none) (r0 := s.run) rfl slots).2 j other
    · obtain ⟨raised, stopped, fell'⟩ := changeMode_still (m := new) single armed fell on (both_still short)
      have stays : lossStands (modeEnv s c new).setup { s.run with runoutRaised := raised, tailStopped := stopped } c = false :=
        Bool.eq_false_iff.2 fun h => sound ((lossStands_iff (air raised stopped)).1 h)
      obtain ⟨t, leaves, run⟩ := left (fell'.trans (reapplyLoss_none (.inr stays))) rfl
      have unchanged : s.run.chains.set c was = s.run.chains := set_get_self ..
      exact ⟨t, ⟨leaves, by rw [run, unchanged]⟩, by rw [run]⟩
    · obtain ⟨raised, stopped, fell'⟩ := changeMode_still (m := new) single armed fell on (both_still short)
      have reacts := fell'.trans (reapplyLoss_stands (air raised stopped) ((lossStands_iff (air raised stopped)).2 stands))
      obtain ⟨plain, joins⟩ := reactToLoss_answers (s := { s with
        setup := s.setup.withMode c new, run := { s.run with runoutRaised := raised, tailStopped := stopped } }) (keep := false)
        single hz hd onAir film (by show ((s.setup.withMode c new).modes.get c).fallback = true; rw [withMode_mode]; exact on)
        answer
      refine ⟨fun lit => ?_, fun q falls next dark busy => ?_⟩
      · obtain ⟨t, leaves, run⟩ := left (reacts.trans (plain lit)) rfl
        exact ⟨t, ⟨leaves, by rw [run]; rfl⟩, by rw [run]⟩
      · obtain ⟨t, leaves, run⟩ := left (reacts.trans (joins q falls next dark busy)) rfl
        exact ⟨t, ⟨leaves, by rw [run]; rfl⟩, by rw [run]⟩

end Sys2Proof.Proofs
end

section
/-! PROOFS. What the Lamp Unit's operations leave of a run, and what the walk of one reel leaves (for O31, O32, O40, O44,
O46, O58). -/

namespace Sys2Proof.Machine

/-- The position's lamp record stands restarted, and no strike of it waits. -/
def Fresh (r : Run) (p : Fin 8) : Prop := r.lamps.get p = LampRec.restarted ∧ ∀ x ∈ r.strikeQueue, x.position ≠ p

/-- A hand-off to a reel. -/
def Handoff.IsCue (h : Handoff) : Prop := ∃ q ev, h = .cueEvent q ev

/-- The Lamp Unit acting: lamps, strikes, the gate, orders and hand-offs to the reels, and nothing else. -/
structure LampSide (e : Env) (r0 r : Run) : Prop where
  frame : r = { r0 with lamps := r.lamps, strikeQueue := r.strikeQueue, gate := r.gate, orders := r.orders
                        handoffs := r.handoffs }
  handed : ∀ h ∈ r.handoffs, h ∈ r0.handoffs ∨ h.IsCue
  orders : ∀ st, Unnamed e.setup st → NoOrderFor st r0 → NoOrderFor st r
  fresh : ∀ p, Fresh r0 p → Fresh r p

section
variable {e : Env} {r0 r r' : Run}

theorem LampSide.refl (r : Run) : LampSide e r r := ⟨rfl, fun _ h => .inl h, fun _ _ h => h, fun _ h => h⟩

theorem LampSide.trans (h : LampSide e r0 r) (g : LampSide e r r') : LampSide e r0 r' where
  frame := by rw [g.frame, h.frame]
  handed x hx := (g.handed x hx).elim (h.handed x) .inr
  orders st hs k := g.orders st hs (h.orders st hs k)
  fresh p k := g.fresh p (h.fresh p k)

/-! ### The Lamp Unit (R46, R51, R53 to R61) -/

/-- A lamp record that is restarted stays as it is. -/
theorem LampSide.modLamp {p : Fin 8} {f : LampRec → LampRec}
    (hf : Fresh r0 p → f (r.lamps.get p) = LampRec.restarted) (h : LampSide e r0 r) : LampSide e r0 (r.modLamp p f) where
  frame := by rw [h.frame]; rfl
  handed := h.handed
  orders := h.orders
  fresh q k := by
    refine ⟨?_, (h.fresh q k).2⟩
    rw [Run.modLamp_get]
    split
    · rename_i same
      subst same
      exact hf k
    · exact (h.fresh q k).1

theorem LampSide.leaveStrike (p : Fin 8) (h : LampSide e r0 r) : LampSide e r0 (r.leaveStrike p) where
  frame := by rw [h.frame]; rfl
  handed := h.handed
  orders := h.orders
  fresh q k := ⟨(h.fresh q k).1, fun x hx => (h.fresh q k).2 x (List.mem_filter.1 hx).1⟩

theorem LampSide.joinStrike {x : StrikeEntry} (hx : ¬ Fresh r0 x.position) (h : LampSide e r0 r) :
    LampSide e r0 (r.joinStrike x) where
  frame := by rw [h.frame]; rfl
  handed := h.handed
  orders := h.orders
  fresh q k := ⟨(h.fresh q k).1, fun y hy => (List.mem_append.1 hy).elim ((h.fresh q k).2 y) fun hy same => by
    rw [List.mem_singleton.1 hy] at same
    exact hx (same ▸ k)⟩

theorem LampSide.setGate (g : Gate) (h : LampSide e r0 r) : LampSide e r0 (r.setGate g) :=
  h.trans ⟨rfl, fun _ h => .inl h, fun _ _ h => h, fun _ h => h⟩

theorem LampSide.handAll {hs : List Handoff} (cues : ∀ h ∈ hs, h.IsCue) (h : LampSide e r0 r) :
    LampSide e r0 (r.handAll hs) where
  frame := by rw [h.frame]; rfl
  handed x hx := (List.mem_append.1 hx).elim (h.handed x) fun hx => .inr (cues x hx)
  orders := h.orders
  fresh := h.fresh

theorem LampSide.queueFor (p : Fin 8) (o : Order) (h : LampSide e r0 r) : LampSide e r0 (Machine.queueFor e p o r) := by
  unfold Machine.queueFor
  split
  · rename_i d hd
    refine h.trans ⟨rfl, fun _ h => .inl h, fun st hs k y hy same => ?_, fun _ h => h⟩
    exact (station_of_mem_enqueueOrder hy).elim (fun hy => k y hy same) fun there => hs.position hd (there.symm.trans same)
  · exact h

theorem conditionEvent_isCue (p : Fin 8) : ∀ h ∈ conditionEvent e p, h.IsCue := by
  unfold conditionEvent
  split
  · intro h hh
    exact ⟨_, _, List.mem_singleton.1 hh⟩
  · exact fun h hh => absurd hh List.not_mem_nil

theorem publish_side {p : Fin 8} {a b : Bool} (same : Fresh r0 p → a = false ∧ b = false) (h : LampSide e r0 r) :
    LampSide e r0 (publish e p a b r) := by
  unfold publish
  refine (h.modLamp fun k => ?_).handAll fun x hx => ?_
  · obtain ⟨rfl, rfl⟩ := same k
    rw [(h.fresh p k).1]
    rfl
  · rcases List.mem_append.1 hx with hx | hx <;> split at hx
    · exact conditionEvent_isCue p x hx
    · exact absurd hx List.not_mem_nil
    · exact conditionEvent_isCue p x hx
    · exact absurd hx List.not_mem_nil

theorem workConditions_side (p : Fin 8) (h : LampSide e r0 r) : LampSide e r0 (workConditions e p r) := by
  refine publish_side (fun k => ?_) h
  have unlit : (r.lamps.get p).lamp ≠ .lit := by rw [(h.fresh p k).1]; exact nofun
  exact ⟨primedNow_eq_false unlit, readyNow_eq_false unlit⟩

theorem grantTo_side {p : Fin 8} (waits : ∃ x ∈ r.strikeQueue, x.position = p) : LampSide e r (grantTo e p r) := by
  obtain ⟨x, hx, at_p⟩ := waits
  exact workConditions_side _ ((((LampSide.refl r).leaveStrike p).modLamp fun k => absurd at_p (k.2 x hx)).setGate _ |>.queueFor p _)

theorem nextStrike_mem {x : StrikeEntry} (h : nextStrike r = some x) : x ∈ r.strikeQueue := by
  unfold nextStrike at h
  split at h
  · rename_i y found
    obtain rfl := Option.some.inj h
    exact List.mem_of_find?_eq_some found
  · exact List.mem_of_find?_eq_some h

theorem offerGrant_side (h : LampSide e r0 r) : LampSide e r0 (offerGrant e r) := by
  refine h.trans ?_
  unfold offerGrant
  split
  · split
    · rename_i x found
      exact grantTo_side ⟨x, nextStrike_mem found, rfl⟩
    · exact .refl r
  · exact .refl r
  · exact .refl r

theorem endStrikeOf_side (p : Fin 8) (h : LampSide e r0 r) : LampSide e r0 (endStrikeOf e p r) := by
  unfold endStrikeOf
  split
  · unfold enterGap
    split
    · exact offerGrant_side (h.setGate .free)
    · exact h.setGate _
  · exact h

theorem strikeRequest_side (p : Fin 8) (cls : StrikeClass) (r : Run) : LampSide e r (strikeRequest e p cls r) := by
  unfold strikeRequest
  split
  · rename_i dark
    have lit : ¬ Fresh r p := fun k => by
      rw [k.1] at dark
      exact nomatch (Bool.and_eq_true_iff.1 dark).2
    exact offerGrant_side (((LampSide.refl r).joinStrike lit).modLamp fun k => absurd k lit)
  · exact .refl r

theorem lampDownTaken_side (p : Fin 8) (r : Run) : LampSide e r (lampDownTaken e p r) := by
  have taken : LampSide e r (r.modLamp p LampRec.takenDown) := (LampSide.refl r).modLamp fun k => by rw [k.1]; rfl
  have left : LampSide e r (if (r.lamps.get p).lamp = .queued then (r.modLamp p LampRec.takenDown).leaveStrike p
      else r.modLamp p LampRec.takenDown) := by
    split
    · exact taken.leaveStrike p
    · exact taken
  unfold lampDownTaken
  refine workConditions_side p ?_
  split
  · exact endStrikeOf_side p left
  · exact left

theorem lampDownRequest_side (p : Fin 8) (r : Run) : LampSide e r (lampDownRequest e p r) :=
  (lampDownTaken_side p r).queueFor p _

/-- R46: a lamp restarted. -/
theorem restartLamp_side (p : Fin 8) (r : Run) : LampSide e r (restartLamp e p r) := by
  unfold restartLamp
  exact endStrikeOf_side p (((publish_side (fun _ => ⟨rfl, rfl⟩) (.refl r)).modLamp fun _ => rfl).leaveStrike p)

theorem restartLamp_fresh (p : Fin 8) (r : Run) : Fresh (restartLamp e p r) p := by
  refine (endStrikeOf_side (e := e) p (.refl _)).fresh p ⟨?_, fun x hx => ?_⟩
  · have restarted : ((publish e p false false r).modLamp p fun _ => LampRec.restarted).lamps.get p = LampRec.restarted :=
      (Run.modLamp_get ..).trans (if_pos rfl)
    exact restarted
  · have kept := (List.mem_filter.1 hx).2
    simpa using kept

end

/-! ### What a walk leaves (R83) -/

/-- The three runs of the mark detector stay. -/
def SameRuns (a b : ScanRec) : Prop := b.dotRun = a.dotRun ∧ b.clearRun = a.clearRun ∧ b.precedingClear = a.precedingClear

/-- What no walk, no evaluation and no reaction to a loss touches: the motion records, the counters and the mark detectors;
no cursor goes back, a resting chain rests, a restarted lamp stays, nothing but reels is handed to, and no order is queued
for a station without a definition. -/
structure Spread (e : Env) (r0 r : Run) : Prop where
  motions : r.motions = r0.motions
  counters : r.counters = r0.counters
  runs : ∀ p, SameRuns (r0.scans.get p) (r.scans.get p)
  cursor : ∀ p, (r0.scans.get p).cursor ≤ (r.scans.get p).cursor
  chains : ∀ c, (r0.chains.get c).Resting → r.chains.get c = r0.chains.get c
  handed : ∀ h ∈ r.handoffs, h ∈ r0.handoffs ∨ h.IsCue
  orders : ∀ st, Unnamed e.setup st → NoOrderFor st r0 → NoOrderFor st r
  fresh : ∀ p, Fresh r0 p → Fresh r p
  flags : ∀ p, Idle e r0 p → Flagless r0 p → Flagless r p

/-- What the walk of p's reel leaves: of the scanning records p's alone is touched, and of the chains p's own, or one that
has a position past runout. -/
structure Walked (e : Env) (p : Fin 8) (r0 r : Run) : Prop where
  spread : Spread e r0 r
  scans : ∀ q, q ≠ p → r.scans.get q = r0.scans.get q
  others : ∀ c, (∀ z, chainOf e.setup p ≠ some (c, z)) → Unpast e r0 c → r.chains.get c = r0.chains.get c

section
variable {e : Env} {p : Fin 8} {r0 r r' : Run}

theorem Spread.refl (r : Run) : Spread e r r :=
  ⟨rfl, rfl, fun _ => ⟨rfl, rfl, rfl⟩, fun _ => Nat.le_refl _, fun _ _ => rfl, fun _ h => .inl h, fun _ _ h => h, fun _ h => h,
    fun _ _ h => h⟩

theorem Spread.idle (h : Spread e r0 r) {q : Fin 8} (g : Idle e r0 q) : Idle e r q := by
  obtain ⟨stands, rests⟩ := g
  refine ⟨by rw [h.motions]; exact stands, fun d z hd => ?_⟩
  rw [h.chains d (rests d z hd)]
  exact rests d z hd

theorem Spread.trans (h : Spread e r0 r) (g : Spread e r r') : Spread e r0 r' where
  motions := g.motions.trans h.motions
  counters := g.counters.trans h.counters
  runs q := by
    obtain ⟨dot, clear, preceding⟩ := h.runs q
    obtain ⟨dot', clear', preceding'⟩ := g.runs q
    exact ⟨dot'.trans dot, clear'.trans clear, preceding'.trans preceding⟩
  cursor q := Nat.le_trans (h.cursor q) (g.cursor q)
  chains c k := (g.chains c ((h.chains c k).symm ▸ k)).trans (h.chains c k)
  handed x hx := (g.handed x hx).elim (h.handed x) .inr
  orders st hs k := g.orders st hs (h.orders st hs k)
  fresh q k := g.fresh q (h.fresh q k)
  flags q hq k := g.flags q (h.idle hq) (h.flags q hq k)

theorem Spread.of_chain {c : Fin 4} (g : ChainSide e c r0 r) : Spread e r0 r where
  motions := g.motions
  counters := g.counters
  runs q := by rw [g.scans]; exact ⟨rfl, rfl, rfl⟩
  cursor q := Nat.le_of_eq (by rw [g.scans])
  chains d k := g.apart d (.inl k)
  handed x hx := by rw [g.handoffs] at hx; exact .inl hx
  orders := g.orders
  fresh q k := by unfold Fresh; rw [g.lamps, g.queue]; exact k
  flags := g.flags

theorem Spread.of_lamp (g : LampSide e r0 r) : Spread e r0 r where
  motions := by rw [g.frame]
  counters := by rw [g.frame]
  runs q := by rw [g.frame]; exact ⟨rfl, rfl, rfl⟩
  cursor q := Nat.le_of_eq (by rw [g.frame])
  chains d _ := by rw [g.frame]
  handed := g.handed
  orders := g.orders
  fresh := g.fresh
  flags q _ k := by unfold Flagless; rw [g.frame]; exact k

theorem Walked.refl (r : Run) : Walked e p r r := ⟨.refl r, fun _ _ => rfl, fun _ _ _ => rfl⟩

theorem Unpast.congr {c : Fin 4} (h : Unpast e r0 c) (motions : r.motions = r0.motions) : Unpast e r c :=
  fun q z hq => (pastRunout_congr motions c q).trans (h q z hq)

theorem Walked.trans (h : Walked e p r0 r) (g : Walked e p r r') : Walked e p r0 r' where
  spread := h.spread.trans g.spread
  scans q hq := (g.scans q hq).trans (h.scans q hq)
  others c hc k := (g.others c hc (k.congr h.spread.motions)).trans (h.others c hc k)

theorem Walked.chain {c : Fin 4} {z : Port} (hc : chainOf e.setup p = some (c, z)) (g : ChainSide e c r r')
    (h : Walked e p r0 r) : Walked e p r0 r' :=
  h.trans ⟨.of_chain g, fun q _ => by rw [g.scans], fun d hd k => g.apart d (.inr ⟨fun same => hd z (same ▸ hc), k⟩)⟩

theorem Walked.lamp (g : LampSide e r r') (h : Walked e p r0 r) : Walked e p r0 r' :=
  h.trans ⟨.of_lamp g, fun q _ => by rw [g.frame], fun d _ _ => by rw [g.frame]⟩

theorem Walked.scan {f : ScanRec → ScanRec} (runs : ∀ x, SameRuns x (f x)) (cursor : ∀ x, x.cursor ≤ (f x).cursor)
    (h : Walked e p r0 r) : Walked e p r0 (r.modScan p f) := by
  refine h.trans ⟨⟨rfl, rfl, fun q => ?_, fun q => ?_, fun _ _ => rfl, fun _ h => .inl h, fun _ _ h => h, fun _ h => h,
    fun _ _ h => h⟩, fun q hq => ?_, fun _ _ _ => rfl⟩
  · rw [Run.modScan_get]
    split
    · rename_i same; subst same; exact runs _
    · exact ⟨rfl, rfl, rfl⟩
  · rw [Run.modScan_get]
    split
    · rename_i same; subst same; exact cursor _
    · exact Nat.le_refl _
  · rw [Run.modScan_get, if_neg (Ne.symm hq)]

theorem queueNotice_frame (b : NoticeBody) : queueNotice e b r = { r with
    notices := (queueNotice e b r).notices, slots := (queueNotice e b r).slots } := by
  unfold queueNotice
  split
  · rfl
  · rw [raiseChain_frame]

theorem Walked.notice (b : NoticeBody) (h : Walked e p r0 r) : Walked e p r0 (queueNotice e b r) := by
  rw [queueNotice_frame]
  exact h.trans ⟨⟨rfl, rfl, fun _ => ⟨rfl, rfl, rfl⟩, fun _ => Nat.le_refl _, fun _ _ => rfl, fun _ h => .inl h,
    fun _ _ h => h, fun _ h => h, fun _ _ h => h⟩, fun _ _ => rfl, fun _ _ _ => rfl⟩

theorem Walked.queueFor (q : Fin 8) (o : Order) (h : Walked e p r0 r) : Walked e p r0 (Machine.queueFor e q o r) :=
  h.lamp ((LampSide.refl r).queueFor q o)

/-! ### Actions (R85 to R89) -/

theorem prerollOrders_walked (q : Fin 8) (h : Walked e p r0 r) : Walked e p r0 (prerollOrders e q r) :=
  (h.queueFor q _).queueFor q _

section
variable {c : Fin 4} {z : Port} (hc : chainOf e.setup p = some (c, z))
include hc

theorem beginHold_walked (q : Fin 8) (k : HoldKind) (r : Run) : Walked e p r (beginHold e c p q k r).1 := by
  unfold beginHold
  split
  · rename_i takes
    have film : (r.chains.get c).state.onFilm = true := (Bool.and_eq_true_iff.1 takes).1
    have put : Walked e p r (putHold p q r) := (Walked.refl r).scan (fun _ => ⟨rfl, rfl, rfl⟩) fun _ => Nat.le_refl _
    have held := put.chain hc ((ChainSide.refl (putHold p q r)).modChain (not_apart (r := putHold p q r) (awake_of_film film))
      fun x => { x with hold := some (p, k), holdTimer := .running 0, state := .holding })
    exact held.lamp (strikeRequest_side q .urgent _)
  · exact .refl r

theorem takePreroll_walked (q : Fin 8) (require : Bool) (r : Run) : Walked e p r (takePreroll e c p q require r).1 := by
  unfold takePreroll
  split
  · exact prerollOrders_walked q (.refl r)
  · split
    · exact (Walked.refl r).chain hc (holdFault_side p .preroll (.refl r))
    · split
      · exact prerollOrders_walked q (.refl r)
      · exact beginHold_walked hc q .preroll r

theorem takeChange_walked (q : Fin 8) (require : Bool) (r : Run) : Walked e p r (takeChange e c p q require r).1 := by
  unfold takeChange
  split
  · exact (Walked.refl r).chain hc (changeover_side p q _ _ (.refl r))
  · split
    · exact (Walked.refl r).chain hc (holdFault_side p .change (.refl r))
    · split
      · exact (Walked.refl r).chain hc (changeover_side p q _ _ (.refl r))
      · exact beginHold_walked hc q .change r

theorem takeChainAction_walked (q : Option (Fin 8)) (a : Action) (r : Run) :
    Walked e p r (takeChainAction e c p q a r).1 := by
  unfold takeChainAction
  split
  · exact (Walked.refl r).chain hc (plannedCaption_side (.refl r))
  · exact takePreroll_walked hc _ _ r
  · exact takeChange_walked hc _ _ r
  · exact (Walked.refl r).lamp (strikeRequest_side _ .urgent r)
  · exact .refl r

end

theorem takePartnerAction_walked (p : Fin 8) (a : Action) (r : Run) : Walked e p r (takePartnerAction e p a r).1 := by
  unfold takePartnerAction
  split
  · exact .refl r
  · rename_i c z hc
    repeat' split
    all_goals first | exact .refl r | exact takeChainAction_walked hc _ a r

theorem ownAction_walked (p : Fin 8) (a : Action) (r : Run) : Walked e p r (ownAction e p a r) := by
  unfold ownAction
  split
  · exact (Walked.refl r).lamp (lampDownRequest_side p r)
  · exact ((Walked.refl r).queueFor p _).queueFor p _

theorem takeOwnAction_walked (p : Fin 8) (a : Action) (r : Run) : Walked e p r (takeOwnAction e p a r).1 := by
  unfold takeOwnAction
  split
  · exact .refl r
  · split
    · have put : Walked e p r (putWait p r) := (Walked.refl r).scan (fun _ => ⟨rfl, rfl, rfl⟩) fun _ => Nat.le_refl _
      exact put
    · exact ownAction_walked p a r

theorem takeAction_walked (p : Fin 8) (a : Action) (r : Run) : Walked e p r (takeAction e p a r).1 := by
  cases a with
  | announce => exact .refl r
  | lampDown | tailStop => exact takeOwnAction_walked p _ r
  | preroll | change | lampPartner | caption => exact takePartnerAction_walked p _ r

/-! ### Triggers and held records (R84, R91) -/

theorem noteMet_walked (p : Fin 8) (b : Bool) (r : Run) : Walked e p r (noteMet e p b r) := by
  have noted : Walked e p r (r.modScan p (fun x => { x with met := some b })) :=
    (Walked.refl r).scan (fun _ => ⟨rfl, rfl, rfl⟩) fun _ => Nat.le_refl _
  unfold noteMet
  dsimp only
  split
  · unfold raiseMarkMissing
    split
    · rename_i c z hc
      exact noted.chain hc ((ChainSide.refl _).raise _ _ _)
    · exact noted
  · exact noted

theorem takeHeldIn_walked {c : Fin 4} {z : Port} (hc : chainOf e.setup p = some (c, z)) (ev : CueEvent) (q : Fin 8) (a : Action)
    (r : Run) : Walked e p r (takeHeldIn e ev c p q a r).1 := by
  have ends : ∀ how, Walked e p r (holdEnd e c p how r) := fun how => (Walked.refl r).chain hc (holdEnd_side p how (.refl r))
  unfold takeHeldIn
  split
  · exact ends _
  · exact ends _
  · exact ends _
  · split
    · exact ends _
    · split
      · exact ends _
      · split
        · unfold conditionCame
          split
          · exact ends _
          · exact (prerollOrders_walked q (.refl r)).chain hc (holdEnd_side p _ (.refl _))
        · exact .refl r

theorem takeHeld_walked (ev : CueEvent) (p : Fin 8) (a : Action) (r : Run) : Walked e p r (takeHeld e ev p a r).1 := by
  unfold takeHeld
  split
  · rename_i c z q hc _
    have noted : Walked e p r (notePartnerRan p q r) := (Walked.refl r).scan (fun _ => ⟨rfl, rfl, rfl⟩) fun _ => Nat.le_refl _
    exact noted.trans (takeHeldIn_walked hc ev q a _)
  · exact .refl r

/-! ### The walk (R83) -/

theorem takeCue_walked (ev : CueEvent) (p : Fin 8) (b : Cue) (r : Run) : Walked e p r (takeCue e ev p b r).1 := by
  unfold takeCue
  dsimp only
  split
  · exact takeHeld_walked ev p _ r
  · exact takeOwnAction_walked p _ r
  · exact takeAction_walked p _ r
  · split
    · exact (noteMet_walked p _ r).trans (takeAction_walked p _ _)
    · exact .refl r

theorem advanced_walked (h : Walked e p r0 r) : Walked e p r0 (r.modScan p ScanRec.advanced) :=
  h.scan (fun _ => ⟨rfl, rfl, rfl⟩) fun _ => Nat.le_succ _

theorem takeRecord_walked (ev : CueEvent) (p : Fin 8) (r : Run) : Walked e p r (takeRecord e ev p r).1 := by
  unfold takeRecord
  split
  · exact .refl r
  · exact advanced_walked (.refl r)
  · rename_i b _
    have taken := takeCue_walked (e := e) ev p b r
    split
    · rename_i r1 how heq
      rw [heq] at taken
      exact advanced_walked (taken.notice _)
    · rename_i r1 heq
      rw [heq] at taken
      exact taken

theorem walk_walked (ev : CueEvent) (p : Fin 8) (n : Nat) (r : Run) : Walked e p r (walk e ev p n r) := by
  induction n generalizing r with
  | zero => exact .refl r
  | succ n ih =>
    have one := takeRecord_walked (e := e) ev p r
    unfold walk
    split
    · rename_i r1 heq
      rw [heq] at one
      exact one.trans (ih r1)
    · rename_i r1 heq
      rw [heq] at one
      exact one

theorem evaluate_walked (ev : CueEvent) (p : Fin 8) (r : Run) : Walked e p r (evaluate e ev p r) := by
  unfold evaluate
  split
  · exact walk_walked ev p _ r
  · exact .refl r

end

/-! ### Several reels (R103, R117) -/

section
variable {e : Env} {r0 r : Run}

theorem foldl_spread {α : Type} {f : Run → α → Run} (hf : ∀ r a, Spread e r (f r a)) (l : List α) (r : Run) :
    Spread e r (l.foldl f r) := by
  induction l generalizing r with
  | nil => exact .refl r
  | cons a l ih => exact (hf r a).trans (ih _)

theorem evaluateBoth_spread (ev : CueEvent) (c : Fin 4) (r : Run) : Spread e r (evaluateBoth e ev c r) :=
  foldl_spread (fun r p => (evaluate_walked ev p r).spread) _ r

theorem evaluateRunout_spread (keep : Bool) (p : Fin 8) (r : Run) : Spread e r (evaluateRunout e keep p r) :=
  .of_chain (evaluateRunout_side (c := 0) keep p (.refl r))

theorem recordRole_spread (p : Fin 8) (r : Run) : Spread e r (recordRole e r p) :=
  ⟨rfl, rfl, fun _ => ⟨rfl, rfl, rfl⟩, fun _ => Nat.le_refl _, fun _ _ => rfl, fun _ h => .inl h, fun _ _ h => h, fun _ h => h,
    fun _ _ h => h⟩

/-- R116: only a chain that switches with kind CHANGE, its SELECT QUEUED, is turned to the fallback input. -/
theorem overtakeSwitch_side (c : Fin 4) (x : Port) (r : Run) : ChainSide e c r (overtakeSwitch e c x r) := by
  unfold overtakeSwitch
  split
  · rename_i turns
    unfold isChangeTarget chainState at turns
    simp only [Bool.and_eq_true, beq_iff_eq] at turns
    obtain ⟨⟨switching, target⟩, queued⟩ := turns
    have awake : ¬ (r.chains.get c).Resting := fun rests => rests.2 switching queued _ target
    dsimp only
    split
    · rename_i d hd
      refine ((ChainSide.refl r).ordered (q := r.orders.map _) fun y hy => ?_).modChain (not_apart awake) _
      obtain ⟨x, hx, rfl⟩ := List.mem_map.1 hy
      split
      · exact .inr fun unnamed => unnamed.chain hd rfl
      · exact .inl hx
    · exact (ChainSide.refl r).modChain (not_apart awake) _
  · exact .refl r

theorem roleChanged_walked (was : Vector Role 8) (p : Fin 8) (r : Run) : Walked e p r (roleChanged e was r p) := by
  unfold roleChanged
  dsimp only
  cases hc : chainOf e.setup p with
  | none =>
    have alone : ∀ r, evaluateRunout e false p r = r := fun r => evaluateRunout_alone hc
    rw [alone]
    exact evaluate_walked .change p r
  | some x =>
    obtain ⟨c, z⟩ := x
    refine Walked.chain (r := evaluate e .change p _) hc (evaluateRunout_side false p (.refl _)) (.trans ?_ (evaluate_walked .change p _))
    dsimp only
    split
    · exact (Walked.refl r).chain hc (overtakeSwitch_side c z r)
    · exact .refl r

theorem workRoles_spread (r : Run) : Spread e r (workRoles e r) := by
  unfold workRoles
  exact (foldl_spread (fun r p => recordRole_spread p r) _ r).trans
    (foldl_spread (fun r p => (roleChanged_walked _ p r).spread) _ _)

theorem reactToLoss_spread (c : Fin 4) (p : Fin 8) (keep : Bool) (r : Run) : Spread e r (reactToLoss e c p keep r) := by
  unfold reactToLoss
  split
  · rename_i reacts
    have awake : ¬ (r.chains.get c).Resting := awake_of_film (Bool.and_eq_true_iff.1 reacts).1
    have falls : ChainSide e c r (switchToFallback e c keep r) := switchTo_side (not_apart awake) _ _ _ (.refl r)
    split
    · split
      · exact .of_chain (changeover_side p _ _ _ (.refl r))
      · exact (Spread.of_chain falls).trans (.of_lamp (strikeRequest_side _ .urgent _))
    · exact .of_chain falls
  · exact .refl r

theorem completeHeld_spread (p : Fin 8) (r : Run) : Spread e r (completeHeld e r p) := by
  unfold completeHeld
  split
  · exact (takeRecord_walked .onAirLoss p r).spread
  · exact .refl r

theorem onAirLoss_spread (c : Fin 4) (p : Fin 8) (r : Run) : Spread e r (onAirLoss e c p r) := by
  have reacted : ∀ keep r, Spread e r (reactToLoss e c p keep ((portPositions e.setup c).foldl (completeHeld e) r)) :=
    fun keep r => (foldl_spread (fun r p => completeHeld_spread p r) _ r).trans (reactToLoss_spread c p keep _)
  unfold onAirLoss
  dsimp only
  refine Spread.trans ?_ (evaluateBoth_spread .onAirLoss c _)
  split
  · rename_i held
    have awake : ¬ (r.chains.get c).Resting := awake_of_holding (beq_iff_eq.1 held)
    have ended : ChainSide e c r (derive e c (clearHold e c r)) := derive_side awake (clearHold_side awake (.refl r))
    exact ((Spread.of_chain ended).trans (reacted _ _)).trans (.of_chain (evaluateReturn_side (c := c) true c _ (.refl _)))
  · exact reacted _ r

theorem takeFault_spread (p : Fin 8) (r : Run) : Spread e r (takeFault e p r) := by
  unfold takeFault
  split
  · split
    · exact onAirLoss_spread _ p r
    · exact .refl r
  · exact .refl r

theorem reapplyLoss_spread (c : Fin 4) (r : Run) : Spread e r (reapplyLoss e c r) := by
  unfold reapplyLoss
  split
  · split
    · exact reactToLoss_spread c _ false r
    · exact .refl r
  · exact .refl r

theorem endUnconfirmed_spread (c : Fin 4) (back r : Run) : Spread e r (endUnconfirmed e c back r) :=
  ((evaluateBoth_spread .change c r).trans (reapplyLoss_spread c _)).trans (.of_chain (evaluateReturn_side (c := c) false c back (.refl _)))

/-! ### Hand-offs to the reels taken -/

/-- No hand-off but to a reel waits. -/
def OnlyCues (r : Run) : Prop := ∀ h ∈ r.handoffs, h.IsCue

theorem pickHandoff_spread {x : Handoff} {r1 : Run} (h : pickHandoff r = some (x, r1)) : Spread e r r1 := by
  have sub := (pickHandoff_sub h).2
  obtain ⟨hs, sched, n, rfl⟩ := pickHandoff_eq h
  exact ⟨rfl, rfl, fun _ => ⟨rfl, rfl, rfl⟩, fun _ => Nat.le_refl _, fun _ _ => rfl, fun y hy => .inl (sub y hy),
    fun _ _ h => h, fun _ h => h, fun _ _ h => h⟩

theorem Spread.onlyCues (h : Spread e r0 r) (cues : OnlyCues r0) : OnlyCues r :=
  fun x hx => (h.handed x hx).elim (cues x) id

/-- A property that a pick and an evaluation keep, kept while the reels take what they are handed. -/
theorem drain_cues {P : Run → Prop} (picked : ∀ r x r1, pickHandoff r = some (x, r1) → P r → P r1)
    (evaluated : ∀ r q ev, OnlyCues r → P r → P (evaluate e ev q r)) (cues : OnlyCues r) (h : P r) : P (drain e r) := by
  have drained : ∀ n r, OnlyCues r → P r → P (drainFor e n r) := by
    intro n
    induction n with
    | zero => exact fun r _ h => h
    | succ n ih =>
      intro r cues h
      unfold drainFor
      split
      · exact h
      · rename_i x r1 pick
        obtain ⟨q, ev, rfl⟩ := cues x (pickHandoff_sub pick).1
        have cues1 : OnlyCues r1 := (pickHandoff_spread (e := e) pick).onlyCues cues
        exact ih _ ((evaluate_walked ev q r1).spread.onlyCues cues1) (evaluated r1 q ev cues1 (picked r _ r1 pick h))
  exact drained _ r cues h

theorem drain_spread (cues : OnlyCues r) : Spread e r (drain e r) :=
  drain_cues (P := Spread e r) (fun _ _ _ pick h => h.trans (pickHandoff_spread pick))
    (fun _ q ev _ h => h.trans (evaluate_walked ev q _).spread) cues (.refl r)

end

end Sys2Proof.Machine
end

section
/-! PROOFS. A desk SELECT that passes (O40). -/

namespace Sys2Proof.Machine

section
variable {e : Env} {c : Fin 4} {i : Input} {r : Run}

theorem deskSelect_unheld (h : (r.chains.get c).state ≠ .holding) : deskSelect e c i r = { r with
    chains := r.chains.set c { r.chains.get c with
      target := some (i, .desk), fromInput := (r.chains.get c).observed, select := .sent
      switchTimer := some 0, holdSweeps := 0, state := .switching } } := by
  unfold deskSelect chainState
  dsimp only
  simp only [h, if_false]
  rfl

/-- R112: the record of a chain whose hold a desk SELECT ends. -/
theorem deskSelect_held (h : (r.chains.get c).state = .holding) :
    (deskSelect e c i r).chains.get c = { r.chains.get c with
      target := some (i, .desk), fromInput := (r.chains.get c).observed, select := .sent
      switchTimer := some 0, state := .switching, hold := none, holdTimer := .idle
      holdSweeps := match (r.chains.get c).holdTimer with
        | .running n => n
        | .expired => (e.setup.modes.get c).holdLimit
        | .idle => 0 } := by
  have count : holdCount (e.setup.modes.get c).holdLimit (r.chains.get c).holdTimer = match (r.chains.get c).holdTimer with
      | .running n => n
      | .expired => (e.setup.modes.get c).holdLimit
      | .idle => 0 := by
    cases (r.chains.get c).holdTimer <;> rfl
  unfold deskSelect chainState
  dsimp only
  simp only [h, if_true]
  rw [Run.modChain_get, if_pos rfl]
  unfold clearHold
  rw [Run.modChain_get, if_pos rfl]
  rw [← count]
  rfl

theorem deskSelect_cues (quiet : r.handoffs = []) : OnlyCues (deskSelect e c i r) := by
  intro x hx
  have handed : x ∈ r.handoffs ++ (portPositions e.setup c).map (fun p => Handoff.cueEvent p .deskSelect) := by
    unfold deskSelect at hx
    dsimp only at hx
    split at hx
    · exact hx
    · exact List.mem_append_left _ hx
  rw [quiet, List.nil_append] at handed
  obtain ⟨p, _, rfl⟩ := List.mem_map.1 handed
  exact ⟨p, _, rfl⟩

end

/-- A chain that switches with its SELECT SENT rests. -/
theorem resting_of_sent {x : ChainRec} (state : x.state = .switching) (select : x.select = .sent) : x.Resting := by
  refine ⟨⟨?_, ?_, ?_⟩, fun _ queued => nomatch select.symm.trans queued⟩ <;> exact fun h => nomatch state.symm.trans h

end Sys2Proof.Machine

namespace Sys2Proof.Proofs

open Sys2Proof.Machine

/-- Settles O40: the SELECT ends a hold at once; the reels take it with the chain in SWITCHING, which they leave as it
stands. -/
theorem passedSelectTaken : Obligations.PassedSelectTaken := by
  intro st m x c i s ha hr hq hd hs
  refine ⟨fun unheld => ?_, fun held => ?_⟩
  · refine exec_order_quiet ha hr hd hs nofun ?_ ?_ ?_
    · exact deskSelect_unheld (e := s.env) (i := i) (r := supersede x .select s.run) unheld
    · exact hq
    · rfl
  · have quiet : (supersede x .select s.run).handoffs = [] := hq
    have record := deskSelect_held (e := s.env) (i := i) (r := supersede x .select s.run) held
    have cues : OnlyCues (passOrder (.select x c i) s.env s.run) := deskSelect_cues quiet
    have spread := drain_spread (e := s.env) cues
    have acts : Acts s.env false false s.run (passOrder (.select x c i) s.env s.run) :=
      deskSelect_acts c i (supersede_acts x .select .refl)
    have drained := drain_acts_quietly (e := s.env) (obs := false) (acts.noMotionDue fun y hy => absurd (hq ▸ hy) List.not_mem_nil)
    have whole : Acts s.env true true s.run (passOrder (.select x c i) s.env s.run) := passOrder_acts _ .refl
    have rests : ((passOrder (.select x c i) s.env s.run).chains.get c).Resting := by
      refine resting_of_sent ?_ ?_
      · exact congrArg ChainRec.state record
      · exact congrArg ChainRec.select record
    refine ⟨_, exec_order_passed ha hd hs nofun, rfl, rfl, ?_, (act_undisturbed whole).ladderKept, ?_, fun d => ?_⟩
    · exact drained.motions.trans acts.motions
    · exact (spread.chains c rests).trans record
    · exact (drained.observed_same d).trans (acts.observed_same d)

end Sys2Proof.Proofs
end

section
/-! PROOFS. Reels that stay through a working of the roles, and DEFINE POSITION (O31). -/

namespace Sys2Proof.Machine

/-! ### A reel with nothing to take, among others that walk (R83, R103) -/

section
variable {e : Env} {r0 r : Run} {p : Fin 8}

/-- With hand-offs to reels alone, whether a reel is scanned turns on its reference. -/
theorem scanned_of_cues {su : Setup} (cues : OnlyCues r) :
    scanned su r p = (definedPos su p && !(cueList su p).isEmpty && (r.motions.get p).referenced) := by
  have none_lost : r.handoffs.contains (.cueUnreferenced p) = false := by
    rw [List.contains_eq_mem, decide_eq_false_iff_not]
    intro h
    obtain ⟨q, ev, same⟩ := cues _ h
    exact nomatch same
  unfold scanned
  rw [none_lost, Bool.or_false]

/-- A reel that has nothing to take has none after its record and its motion stay, hand-offs to reels alone waiting. -/
theorem Nothing.congr_cues {su : Setup} {a b : Run} (h : Nothing su a p) (scan : b.scans.get p = a.scans.get p)
    (motions : b.motions = a.motions) (ca : OnlyCues a) (cb : OnlyCues b) : Nothing su b p := by
  unfold Nothing at h ⊢
  rw [scanned_of_cues cb, cursorRecord_congr (su := su) (a := b) (b := a) (p := p) (by rw [scan]), scan, motions]
  rw [scanned_of_cues ca] at h
  exact h

/-- From r0 to r no walk reached p's reel, which has nothing to take. -/
structure Stayed (e : Env) (p : Fin 8) (r0 r : Run) : Prop where
  spread : Spread e r0 r
  scan : r.scans.get p = r0.scans.get p
  cues : OnlyCues r
  nothing : Nothing e.setup r p

theorem Stayed.refl (cues : OnlyCues r) (nothing : Nothing e.setup r p) : Stayed e p r r := ⟨.refl r, rfl, cues, nothing⟩

theorem Stayed.further {r' : Run} (h : Stayed e p r0 r) (g : Spread e r r') (scan : r'.scans.get p = r.scans.get p) :
    Stayed e p r0 r' :=
  have cues := g.onlyCues h.cues
  ⟨h.spread.trans g, scan.trans h.scan, cues, h.nothing.congr_cues scan g.motions h.cues cues⟩

theorem Stayed.chain {c : Fin 4} {r' : Run} (h : Stayed e p r0 r) (g : ChainSide e c r r') : Stayed e p r0 r' :=
  h.further (.of_chain g) (by rw [g.scans])

theorem Stayed.evaluate (ev : CueEvent) (q : Fin 8) (h : Stayed e p r0 r) : Stayed e p r0 (evaluate e ev q r) := by
  by_cases same : q = p
  · subst same
    rw [evaluate_nothing h.nothing]
    exact h
  · have walked := evaluate_walked (e := e) ev q r
    exact h.further walked.spread (walked.scans p (Ne.symm same))

theorem Stayed.roleChanged (was : Vector Role 8) (q : Fin 8) (h : Stayed e p r0 r) : Stayed e p r0 (roleChanged e was r q) := by
  unfold Machine.roleChanged
  dsimp only
  refine Stayed.chain (c := 0) (Stayed.evaluate .change q ?_) (evaluateRunout_side false q (.refl _))
  split
  · rename_i c z _
    split
    · exact h.chain (overtakeSwitch_side c z r)
    · exact h
  · exact h

theorem foldl_kept {α β : Type} {P : α → Prop} {f : α → β → α} (kept : ∀ x b, P x → P (f x b)) (l : List β) {x : α} (h : P x) :
    P (l.foldl f x) := by
  induction l generalizing x with
  | nil => exact h
  | cons b l ih => exact ih (kept x b h)

theorem Stayed.workRoles (h : Stayed e p r0 r) : Stayed e p r0 (workRoles e r) := by
  unfold Machine.workRoles
  have recorded := foldl_kept (P := Stayed e p r0) (f := recordRole e) (fun x q h => h.further (recordRole_spread q x) rfl)
    (changedRoles e r) h
  exact foldl_kept (P := Stayed e p r0) (fun _ q h => h.roleChanged _ q) _ recorded

theorem Stayed.drain (h : Stayed e p r0 r) : Stayed e p r0 (drain e r) :=
  drain_cues (P := Stayed e p r0) (fun _ _ _ pick h => h.further (pickHandoff_spread pick) (by
    obtain ⟨_, _, _, rfl⟩ := pickHandoff_eq pick
    rfl)) (fun _ q ev _ h => h.evaluate ev q) h.cues h

end

/-! ### The fields of a definition (R22, R174) -/

theorem stationOf_eq_some {b : Byte} {st : Station} : stationOf b = some st ↔ b.toNat = st.toNat := by
  unfold stationOf
  split
  · rename_i small
    rw [Option.some.injEq, ← BitVec.toNat_inj, BitVec.toNat_setWidth, Nat.mod_eq_of_lt small]
  · rename_i large
    exact ⟨nofun, fun same => absurd (same ▸ st.isLt) large⟩

theorem stationOf_eq_none {b : Byte} : stationOf b = none ↔ 63 < b.toNat := by
  unfold stationOf
  split
  · exact ⟨nofun, fun h => by omega⟩
  · exact ⟨fun _ => by omega, fun _ => rfl⟩

theorem ne_undefine {b : Byte} {st : Station} (h : b.toNat = st.toNat) : b ≠ 255 := by
  rintro rfl
  have small : st.toNat < 64 := st.isLt
  rw [← h] at small
  exact absurd small (by decide)

theorem readPosition?_of {station gauge rate : Byte} {st : Station} {g : Gauge} {f : Rate} (hs : station.toNat = st.toNat)
    (hg : Gauge.ofOctet gauge = some g) (hf : Rate.ofOctet rate = some f) :
    readPosition? station gauge rate = some (some { station := st, gauge := g, rate := f }) := by
  unfold readPosition? readPosDef
  rw [if_neg (ne_undefine hs), stationOf_eq_some.2 hs, hg, hf]
  rfl

theorem readPosition?_eq_none {station gauge rate : Byte} (h : 63 < station.toNat ∧ station ≠ 255
    ∨ station ≠ 255 ∧ (Gauge.ofOctet gauge = none ∨ Rate.ofOctet rate = none)) : readPosition? station gauge rate = none := by
  have named : station ≠ 255 := h.elim And.right And.left
  have unread : readPosDef station gauge rate = none := by
    unfold readPosDef
    split
    · rename_i hs hg hf
      rcases h with ⟨high, -⟩ | ⟨-, h | h⟩
      · exact nomatch hs.symm.trans (stationOf_eq_none.2 high)
      · exact nomatch hg.symm.trans h
      · exact nomatch hf.symm.trans h
    · rfl
  unfold readPosition?
  rw [if_neg named, unread]
  rfl

/-! ### DEFINE POSITION (R22, R23) -/

theorem chainBusy_iff {r : Run} {c : Fin 4} :
    chainBusy r c = true ↔ (r.chains.get c).state ≠ .dark ∧ (r.chains.get c).state ≠ .unknown := by
  unfold chainBusy chainState
  rw [Bool.and_eq_true, bne_iff_ne, bne_iff_ne]

theorem positionBusy_iff {su : Setup} {r : Run} {p : Fin 8} : positionBusy su r p = true ↔
    (su.positions.get p).isSome = true ∧ (r.motions.get p).motion ≠ .stopped ∧ (r.motions.get p).motion ≠ .unreported := by
  unfold positionBusy definedPos motionOf
  rw [Bool.and_eq_true, Bool.not_eq_true', ← Bool.not_eq_true, atRest_iff, not_or]

theorem definePositionBusy_iff {su : Setup} {r : Run} {p : Fin 8} : definePositionBusy su r p = true ↔
    ((su.positions.get p).isSome = true ∧ (r.motions.get p).motion ≠ .stopped ∧ (r.motions.get p).motion ≠ .unreported)
      ∨ ∃ c x, chainOf su p = some (c, x) ∧ (r.chains.get c).state ≠ .dark ∧ (r.chains.get c).state ≠ .unknown := by
  unfold definePositionBusy
  rw [Bool.or_eq_true, positionBusy_iff]
  refine or_congr_right ?_
  cases hc : chainOf su p with
  | none => exact ⟨nofun, fun ⟨_, _, h, _⟩ => nomatch h⟩
  | some cx =>
    refine chainBusy_iff.trans ⟨fun h => ⟨cx.1, cx.2, rfl, h⟩, fun ⟨c, x, same, h⟩ => ?_⟩
    obtain rfl := Option.some.inj same
    exact h

theorem definePositionConflict_iff {own : Station} {su : Setup} {p : Fin 8} {d : PosDef} :
    definePositionConflict own su p d = true ↔ d.station = own ∨ (∃ q, q ≠ p ∧ positionStation su q = some d.station)
      ∨ ∃ c, chainStation su c = some d.station := by
  unfold definePositionConflict
  rw [Bool.or_eq_true, Bool.or_eq_true, beq_iff_eq, or_assoc]
  refine or_congr_right (or_congr ?_ ?_)
  · rw [Option.isSome_iff_ne_none, ne_eq, positionAt_eq_none]
    simp only [positionStation_set, Classical.not_forall, Classical.not_not]
    refine exists_congr fun q => ?_
    split
    · rename_i same
      exact ⟨nofun, fun h => absurd same.symm h.1⟩
    · rename_i other
      exact ⟨fun h => ⟨Ne.symm other, h⟩, And.right⟩
  · rw [Option.isSome_iff_ne_none, ne_eq, chainAt_eq_none]
    simp only [Classical.not_forall, Classical.not_not]

theorem reqDefinePosition_at {position station gauge rate : Byte} {p : Fin 8} {new : Option PosDef} (s : State)
    (hp : position.toNat = p.val) (read : readPosition? station gauge rate = some new) :
    reqDefinePosition position station gauge rate s =
      if definePositionBusy s.setup s.run p then refuse .busy s
      else if new.any (definePositionConflict s.port.own s.setup p) then refuse .conflict s
      else answerDone data10 ({ s with setup := { s.setup with positions := s.setup.positions.set p new } }.act
        (redefinePosition p (s.setup.positions.get p) new)) := by
  unfold reqDefinePosition
  rw [indexOf_eq_some.2 hp, read]

/-! ### What a redefinition leaves (R23, R46, R79, R142) -/

section
variable {e : Env} {p : Fin 8} {r : Run}

/-- The restarts of a redefinition, before the old station's orders are withdrawn and the roles are worked. -/
def positionRestarted (e : Env) (p : Fin 8) (r : Run) : Run :=
  clearCountersOf p (restartLamp e p (endScanHold e p (fun _ => ScanRec.restarted)
    (((restartMotion p r).setRunoutRaised p false).setTailStopped p false)))

theorem positionRestarted_motions : (positionRestarted e p r).motions = r.motions.set p MotionRec.restarted := by
  unfold positionRestarted clearCountersOf
  dsimp only
  rw [(restartLamp_side p _).frame]
  exact endScanHold_others.1

theorem positionRestarted_scan : (positionRestarted e p r).scans.get p = ScanRec.restarted := by
  unfold positionRestarted clearCountersOf
  dsimp only
  rw [(restartLamp_side p _).frame]
  exact endScanHold_scan

theorem positionRestarted_fresh : Fresh (positionRestarted e p r) p := restartLamp_fresh p _

theorem positionRestarted_cues (quiet : r.handoffs = []) : OnlyCues (positionRestarted e p r) := by
  intro h hh
  refine ((restartLamp_side (e := e) p _).handed h hh).elim (fun before => ?_) id
  rw [endScanHold_others.2.2.2] at before
  exact absurd (quiet ▸ before) List.not_mem_nil

theorem positionRestarted_counter (i : Fin 16) (q : Fin 8) : ((positionRestarted e p r).counters.get i).get q =
    if q = p then 0 else (r.counters.get i).get q := by
  obtain ⟨c, ended⟩ := endScanHold_side (e := e) p (fun _ => ScanRec.restarted)
    (((restartMotion p r).setRunoutRaised p false).setTailStopped p false)
  have kept : (restartLamp e p (endScanHold e p (fun _ => ScanRec.restarted)
      (((restartMotion p r).setRunoutRaised p false).setTailStopped p false))).counters = r.counters := by
    rw [(restartLamp_side p _).frame]
    exact ended.counters
  have row : (positionRestarted e p r).counters.get i = (r.counters.get i).set p 0 := by
    unfold positionRestarted clearCountersOf
    dsimp only
    rw [kept]
    exact Vector.getElem_mapIdx ..
  rw [row, get_set_fin]
  exact ite_of_iff eq_comm

theorem withdrawOld_frame (old new : Option PosDef) : withdrawOld old new r = { r with orders := (withdrawOld old new r).orders } := by
  unfold withdrawOld
  split
  · rfl
  · split <;> rfl

theorem withdrawOld_noOrder {d : PosDef} {new : Option PosDef} (gone : ∀ x, new = some x → x.station ≠ d.station) :
    NoOrderFor d.station (withdrawOld (some d) new r) := by
  have changed : new.map PosDef.station ≠ some d.station := fun same => by
    obtain ⟨x, hx, h⟩ := Option.map_eq_some_iff.1 same
    exact gone x hx h
  intro y hy
  unfold withdrawOld at hy
  dsimp only at hy
  rw [if_neg changed] at hy
  exact bne_iff_ne.1 (List.mem_filter.1 hy).2

/-- The restarted position stands through the working of the roles and the walks that follow it. -/
theorem redefinePosition_stayed (old new : Option PosDef) (quiet : r.handoffs = []) :
    Stayed e p (withdrawOld old new (positionRestarted e p r)) (drain e (redefinePosition p old new e r)) := by
  have cues : OnlyCues (withdrawOld old new (positionRestarted e p r)) := by
    rw [withdrawOld_frame]
    exact positionRestarted_cues quiet
  have lost : Nothing e.setup (withdrawOld old new (positionRestarted e p r)) p := by
    refine .inl ?_
    rw [scanned_of_cues cues, withdrawOld_frame, positionRestarted_motions, get_set_fin, if_pos rfl]
    exact Bool.and_false _
  exact (Stayed.refl cues lost).workRoles.drain

end

theorem reset_motion (p : Fin 8) : State.reset.run.motions.get p = MotionRec.restarted := by revert p; decide
theorem reset_lamp (p : Fin 8) : State.reset.run.lamps.get p = LampRec.restarted := by revert p; decide
theorem reset_scan (p : Fin 8) : State.reset.run.scans.get p = ScanRec.restarted := by revert p; decide

/-- The station of a position withdrawn or moved is nobody's. -/
theorem unnamed_old {own : Station} {su : Setup} {p : Fin 8} {d : PosDef} {new : Option PosDef} (single : StationsSingle own su)
    (hd : su.positions.get p = some d) (gone : ∀ x, new = some x → x.station ≠ d.station) :
    Unnamed { su with positions := su.positions.set p new } d.station := by
  obtain ⟨positions, _, apart, _, _⟩ := single
  have here : positionStation su p = some d.station := by
    unfold positionStation
    rw [hd]
    rfl
  have named : (positionStation su p).isSome = true := by rw [here]; rfl
  refine ⟨fun q there => ?_, fun c there => apart p c named (here.trans there.symm)⟩
  rw [positionStation_set] at there
  split at there
  · obtain ⟨x, hx, same⟩ := Option.map_eq_some_iff.1 there
    exact gone x hx same
  · rename_i other
    exact other (positions p q named (here.trans there.symm))

end Sys2Proof.Machine

namespace Sys2Proof.Proofs

open Sys2Proof.Machine

/-- R23: an accepted DEFINE POSITION. -/
theorem definePosition_ends {tag position station gauge rate : Byte} {s : State} {p : Fin 8} {new : Option PosDef}
    (ha : s.acting) (hq : s.quiet)
    (answered : reqDefinePosition position station gauge rate s = answerDone data10
      ({ s with setup := { s.setup with positions := s.setup.positions.set p new } }.act
        (redefinePosition p (s.setup.positions.get p) new))) :
    ∃ t, exec (.definePosition tag position station gauge rate) s = .next t
      ∧ t.port.loopOut = some (s.replyCell 1 tag 0 (Vector.replicate 10 0))
      ∧ t.setup = { s.setup with positions := s.setup.positions.set p new }
      ∧ t.run.motions.get p = State.reset.run.motions.get p
      ∧ (∀ q, q ≠ p → t.run.motions.get q = s.run.motions.get q) ∧ LadderKept s t
      ∧ t.run.lamps.get p = State.reset.run.lamps.get p ∧ t.run.scans.get p = State.reset.run.scans.get p
      ∧ (∀ x ∈ t.run.strikeQueue, x.position ≠ p)
      ∧ (∀ (i : Fin 16) (q : Fin 8), (t.run.counters.get i).get q = if q = p then 0 else (s.run.counters.get i).get q)
      ∧ (StationsSingle s.port.own s.setup → ∀ d, s.setup.positions.get p = some d →
          (∀ x, new = some x → x.station ≠ d.station) → ∀ y ∈ t.run.orders, y.station ≠ d.station) := by
  obtain ⟨t, next, port, _, setup, _, run⟩ := coded_answered (m := payload13 1 tag position station gauge rate) (n := 1)
    (tag := tag) ha answered
  obtain ⟨e, he⟩ : ∃ e : Env, e = { setup := { s.setup with positions := s.setup.positions.set p new }, sweep := s.port.sweep } :=
    ⟨_, rfl⟩
  have stayed := redefinePosition_stayed (e := e) (p := p) (r := s.run) (s.setup.positions.get p) new hq
  have ran : t.run = drain e (redefinePosition p (s.setup.positions.get p) new e s.run) := by rw [run, he]; rfl
  rw [← ran] at stayed
  have motions := stayed.spread.motions
  have fresh : Fresh t.run p := stayed.spread.fresh p (by
    rw [withdrawOld_frame]
    exact positionRestarted_fresh)
  have counters := stayed.spread.counters
  have scan := stayed.scan
  rw [withdrawOld_frame] at motions counters scan
  refine ⟨t, next, congrArg LoopPort.loopOut port, setup, ?_, fun q other => ?_, request_ladderKept next (reqDefinePosition_written ..), ?_, ?_,
    fresh.2, fun i q => ?_, fun single d hd gone => ?_⟩
  · rw [motions, positionRestarted_motions, get_set_fin, if_pos rfl]
    exact (reset_motion p).symm
  · rw [motions, positionRestarted_motions, get_set_fin, if_neg (Ne.symm other)]
  · exact fresh.1.trans (reset_lamp p).symm
  · rw [scan]
    exact positionRestarted_scan.trans (reset_scan p).symm
  · rw [counters]
    exact positionRestarted_counter i q
  · refine stayed.spread.orders d.station ?_ ?_
    · rw [he]
      exact unnamed_old single hd gone
    · rw [hd]
      exact withdrawOld_noOrder gone

/-- Settles O31: the restarts come first; the position, its reel unreferenced, stands through what the roles bring. -/
theorem definePositionBinds : Obligations.DefinePositionBinds := by
  intro tag position station gauge rate s ha hr hq answers
  refine ⟨fun bad => ?_, ?_⟩
  · have refused : reqDefinePosition position station gauge rate s = refuse .range s := by
      unfold reqDefinePosition
      split
      · rename_i q new index read
        rw [indexOf_eq_some] at index
        rcases bad with bad | bad | bad
        · omega
        · exact nomatch read.symm.trans (readPosition?_eq_none (.inl bad))
        · exact nomatch read.symm.trans (readPosition?_eq_none (.inr bad))
      · rfl
    exact coded_refused (m := payload13 1 tag position station gauge rate) ha hr refused
  · intro p hp busy ends
    have refused : ∀ new, readPosition? station gauge rate = some new → busy → answers 4 := fun new read h =>
      coded_refused (m := payload13 1 tag position station gauge rate) ha hr
        ((reqDefinePosition_at s hp read).trans (if_pos (definePositionBusy_iff.2 h)))
    have accepted : ∀ new, readPosition? station gauge rate = some new → ¬ busy →
        new.any (definePositionConflict s.port.own s.setup p) = false → ends new := fun new read h free =>
      definePosition_ends ha hq ((reqDefinePosition_at s hp read).trans ((if_neg (fun k => h (definePositionBusy_iff.1 k))).trans
        (if_neg (Bool.eq_false_iff.1 free))))
    refine ⟨fun gone => ?_, fun st g f hs hg hf => ?_⟩
    · have read : readPosition? station gauge rate = some none := if_pos gone
      exact ⟨refused none read, fun h => accepted none read h rfl⟩
    · have read := readPosition?_of hs hg hf
      refine ⟨refused _ read, fun h => ⟨fun taken => ?_, fun own positions chains => accepted _ read h ?_⟩⟩
      · exact coded_refused (m := payload13 1 tag position station gauge rate) ha hr
          ((reqDefinePosition_at s hp read).trans ((if_neg (fun k => h (definePositionBusy_iff.1 k))).trans
            (if_pos (definePositionConflict_iff.2 taken))))
      · rw [Option.any_some, ← Bool.not_eq_true, definePositionConflict_iff]
        rintro (same | ⟨q, other, there⟩ | ⟨c, there⟩)
        · exact own same
        · exact positions q other there
        · exact chains c there

end Sys2Proof.Proofs
end

section
/-! PROOFS. DEFINE CHAIN (O32). -/

namespace Sys2Proof.Machine

/-! ### The fields of a definition (R123, R174) -/

theorem readPort_eq_none {b : Byte} (high : 7 < b.toNat) (named : b ≠ 255) : readPort b = none := by
  unfold readPort
  rw [if_neg named, indexOf_eq_none.2 high]
  rfl

theorem readChain?_of {station a b caption : Byte} {st : Station} {x y : Option (Fin 8)} (hs : station.toNat = st.toNat)
    (hx : readPort a = some x) (hy : readPort b = some y) : readChain? station a b caption =
      some (some { station := st, port0 := x, port1 := y, caption := caption != 0 }) := by
  unfold readChain? readChainDef
  rw [if_neg (ne_undefine hs), stationOf_eq_some.2 hs, hx, hy]
  rfl

theorem readChain?_eq_none {station a b caption : Byte} (h : 63 < station.toNat ∧ station ≠ 255
    ∨ station ≠ 255 ∧ (7 < a.toNat ∧ a ≠ 255 ∨ 7 < b.toNat ∧ b ≠ 255)) : readChain? station a b caption = none := by
  have named : station ≠ 255 := h.elim And.right And.left
  have unread : readChainDef station a b caption = none := by
    unfold readChainDef
    split
    · rename_i hs hx hy
      rcases h with ⟨high, -⟩ | ⟨-, ⟨high, port⟩ | ⟨high, port⟩⟩
      · exact nomatch hs.symm.trans (stationOf_eq_none.2 high)
      · exact nomatch hx.symm.trans (readPort_eq_none high port)
      · exact nomatch hy.symm.trans (readPort_eq_none high port)
    · rfl
  unfold readChain?
  rw [if_neg named, unread]
  rfl

/-! ### BUSY and CONFLICT (R123) -/

theorem mem_chainPositions_iff {new : Option ChainDef} {p : Fin 8} :
    p ∈ chainPositions new ↔ ∃ x, new = some x ∧ (x.port0 = some p ∨ x.port1 = some p) := by
  unfold chainPositions
  cases new with
  | none => exact ⟨nofun, fun ⟨_, h, _⟩ => nomatch h⟩
  | some d =>
    rw [List.mem_append, Option.mem_toList, Option.mem_toList]
    exact ⟨fun h => ⟨d, rfl, h⟩, fun ⟨x, same, h⟩ => by obtain rfl := Option.some.inj same; exact h⟩

theorem mem_chainPositions_at {su : Setup} {c : Fin 4} {p : Fin 8} :
    p ∈ chainPositions (su.chains.get c) ↔ ∃ z, portPosition su c z = some p := by
  unfold portPosition
  rw [mem_chainPositions_iff]
  constructor
  · rintro ⟨x, hx, h | h⟩
    · exact ⟨.zero, by rw [hx]; exact h⟩
    · exact ⟨.one, by rw [hx]; exact h⟩
  · rintro ⟨z, h⟩
    obtain ⟨x, hx, port⟩ := Option.bind_eq_some_iff.1 h
    cases z with
    | zero => exact ⟨x, hx, .inl port⟩
    | one => exact ⟨x, hx, .inr port⟩

/-- R123: a port position of another chain is taken. -/
theorem portTaken_iff {su : Setup} {c : Fin 4} {p : Fin 8} :
    portTaken su c p = true ↔ ∃ d z, d ≠ c ∧ portPosition su d z = some p := by
  constructor
  · intro taken
    refine Classical.byContradiction fun free => ?_
    have off : chainOf { su with chains := su.chains.set c none } p = none := by
      refine chainOf_eq_none.2 fun d z => ?_
      rw [portPosition_set]
      split
      · exact nofun
      · rename_i other
        exact fun there => free ⟨d, z, Ne.symm other, there⟩
    unfold portTaken at taken
    rw [off] at taken
    exact nomatch taken
  · rintro ⟨d, z, other, there⟩
    refine Classical.byContradiction fun free => ?_
    exact portTaken_eq_false (Bool.eq_false_iff.2 free) d other z there

theorem defineChainBusy_iff {su : Setup} {r : Run} {c : Fin 4} {new : Option ChainDef} :
    defineChainBusy su r c new = true ↔ ((su.chains.get c).isSome = true ∧ (r.chains.get c).state ≠ .dark
        ∧ (r.chains.get c).state ≠ .unknown)
      ∨ (∃ z p, portPosition su c z = some p ∧ (su.positions.get p).isSome = true
        ∧ (r.motions.get p).motion ≠ .stopped ∧ (r.motions.get p).motion ≠ .unreported)
      ∨ ∃ p ∈ chainPositions new, (su.positions.get p).isSome = true
        ∧ (r.motions.get p).motion ≠ .stopped ∧ (r.motions.get p).motion ≠ .unreported := by
  unfold defineChainBusy
  dsimp only
  rw [Bool.or_eq_true, Bool.and_eq_true, chainBusy_iff, List.any_append, Bool.or_eq_true, List.any_eq_true, List.any_eq_true]
  refine or_congr_right (or_congr ⟨?_, ?_⟩ (exists_congr fun p => and_congr_right' positionBusy_iff))
  · rintro ⟨p, at_port, moves⟩
    obtain ⟨z, port⟩ := mem_chainPositions_at.1 at_port
    exact ⟨z, p, port, positionBusy_iff.1 moves⟩
  · rintro ⟨z, p, port, moves⟩
    exact ⟨p, mem_chainPositions_at.2 ⟨z, port⟩, positionBusy_iff.2 moves⟩

theorem defineChainConflict_iff {own : Station} {su : Setup} {c : Fin 4} {st : Station} {x y : Option (Fin 8)} {k : Bool} :
    defineChainConflict own su c { station := st, port0 := x, port1 := y, caption := k } = true ↔
      st = own ∨ (∃ p, positionStation su p = some st) ∨ (∃ d, d ≠ c ∧ chainStation su d = some st)
        ∨ (x.isSome = true ∧ x = y)
        ∨ ∃ d z p, d ≠ c ∧ portPosition su d z = some p ∧ (x = some p ∨ y = some p) := by
  have positions : (positionAt su st).isSome = true ↔ ∃ p, positionStation su p = some st := by
    rw [Option.isSome_iff_ne_none, ne_eq, positionAt_eq_none]
    simp only [Classical.not_forall, Classical.not_not]
  have chains : (chainAt { su with chains := su.chains.set c none } st).isSome = true ↔
      ∃ d, d ≠ c ∧ chainStation su d = some st := by
    rw [Option.isSome_iff_ne_none, ne_eq, chainAt_eq_none]
    simp only [chainStation_set, Classical.not_forall, Classical.not_not]
    refine exists_congr fun d => ?_
    split
    · rename_i same
      exact ⟨nofun, fun h => absurd same.symm h.1⟩
    · rename_i other
      exact ⟨fun h => ⟨Ne.symm other, h⟩, And.right⟩
  have ports : (chainPositions (some { station := st, port0 := x, port1 := y, caption := k })).any (portTaken su c) = true ↔
      ∃ d z p, d ≠ c ∧ portPosition su d z = some p ∧ (x = some p ∨ y = some p) := by
    rw [List.any_eq_true]
    constructor
    · rintro ⟨p, named, taken⟩
      obtain ⟨d, z, other, port⟩ := portTaken_iff.1 taken
      obtain ⟨_, same, at_port⟩ := mem_chainPositions_iff.1 named
      obtain rfl := Option.some.inj same
      exact ⟨d, z, p, other, port, at_port⟩
    · rintro ⟨d, z, p, other, port, at_port⟩
      exact ⟨p, mem_chainPositions_iff.2 ⟨_, rfl, at_port⟩, portTaken_iff.2 ⟨d, z, other, port⟩⟩
  unfold defineChainConflict
  rw [Bool.or_eq_true, Bool.or_eq_true, Bool.or_eq_true, Bool.or_eq_true, Bool.and_eq_true, beq_iff_eq, beq_iff_eq, positions,
    chains, ports, or_assoc, or_assoc, or_assoc]
  exact or_congr_right (or_congr_right (or_congr_right or_comm))

theorem reqDefineChain_at {chain station a b caption : Byte} {c : Fin 4} {new : Option ChainDef} (s : State)
    (hc : chain.toNat = c.val) (read : readChain? station a b caption = some new) :
    reqDefineChain chain station a b caption s =
      if defineChainBusy s.setup s.run c new then refuse .busy s
      else if new.any (defineChainConflict s.port.own s.setup c) then refuse .conflict s
      else answerDone data10 ({ s with setup := { s.setup with chains := s.setup.chains.set c new } }.act
        (redefineChain c (s.setup.chains.get c) new)) := by
  unfold reqDefineChain
  rw [indexOf_eq_some.2 hc, read]

/-! ### What a redefinition leaves (R100, R123) -/

theorem ChainRec.restarted_resting : ChainRec.restarted.Resting := ⟨⟨nofun, nofun, nofun⟩, nofun⟩

theorem reset_chain (c : Fin 4) : State.reset.run.chains.get c = ChainRec.restarted := by revert c; decide

section
variable {e : Env} {c : Fin 4} {r : Run}

theorem clearRunoutFlags_frame (p : Fin 8) : clearRunoutFlags r p = { r with
    runoutRaised := (clearRunoutFlags r p).runoutRaised, tailStopped := (clearRunoutFlags r p).tailStopped } := rfl

/-- R100: the flags of every position listed are clear, and nothing else is touched. -/
theorem foldl_clearRunoutFlags (l : List (Fin 8)) (r : Run) :
    l.foldl clearRunoutFlags r = { r with runoutRaised := (l.foldl clearRunoutFlags r).runoutRaised
                                          tailStopped := (l.foldl clearRunoutFlags r).tailStopped }
      ∧ (∀ p, Flagless r p → Flagless (l.foldl clearRunoutFlags r) p)
      ∧ ∀ p ∈ l, Flagless (l.foldl clearRunoutFlags r) p := by
  induction l generalizing r with
  | nil => exact ⟨rfl, fun _ h => h, nofun⟩
  | cons q l ih =>
    obtain ⟨frame, kept, cleared⟩ := ih (clearRunoutFlags r q)
    have stays : ∀ p, Flagless r p → Flagless (clearRunoutFlags r q) p := by
      rintro p ⟨raised, stopped⟩
      refine ⟨(get_set_fin ..).trans ?_, (get_set_fin ..).trans ?_⟩ <;> split
      · rfl
      · exact raised
      · rfl
      · exact stopped
    have clear : Flagless (clearRunoutFlags r q) q :=
      ⟨(get_set_fin ..).trans (if_pos rfl), (get_set_fin ..).trans (if_pos rfl)⟩
    refine ⟨?_, fun p h => kept p (stays p h), fun p hp => ?_⟩
    · rw [List.foldl_cons, frame]
      rfl
    · rcases List.mem_cons.1 hp with rfl | hp
      · exact kept _ clear
      · exact cleared p hp

/-- The restarts of a redefinition, before the roles are worked. -/
def chainRestarted (c : Fin 4) (old new : Option ChainDef) (r : Run) : Run :=
  let r2 := (chainPositions old ++ chainPositions new).foldl clearRunoutFlags (r.modChain c (fun _ => ChainRec.restarted))
  match old with
  | some d => withdrawStation d.station r2
  | none => r2

theorem redefineChain_eq (old new : Option ChainDef) : redefineChain c old new e r = workRoles e (chainRestarted c old new r) := rfl

theorem chainRestarted_frame (old new : Option ChainDef) : chainRestarted c old new r = { r with
    chains := r.chains.set c ChainRec.restarted, orders := (chainRestarted c old new r).orders
    runoutRaised := (chainRestarted c old new r).runoutRaised, tailStopped := (chainRestarted c old new r).tailStopped } := by
  have cleared := (foldl_clearRunoutFlags (chainPositions old ++ chainPositions new)
    (r.modChain c fun _ => ChainRec.restarted)).1
  unfold chainRestarted
  dsimp only
  split
  · unfold withdrawStation
    rw [cleared]
    rfl
  · rw [cleared]
    rfl

theorem chainRestarted_flags {old new : Option ChainDef} {p : Fin 8} (hp : p ∈ chainPositions old ++ chainPositions new) :
    Flagless (chainRestarted c old new r) p := by
  have cleared := (foldl_clearRunoutFlags (chainPositions old ++ chainPositions new)
    (r.modChain c fun _ => ChainRec.restarted)).2.2 p hp
  unfold chainRestarted
  dsimp only
  split
  · exact cleared
  · exact cleared

/-- The restarted chain stands, and no other observes anew, through the working of the roles and the walks after it. -/
theorem redefineChain_spread (old new : Option ChainDef) (quiet : r.handoffs = []) :
    Spread e (chainRestarted c old new r) (drain e (redefineChain c old new e r))
      ∧ ∀ d, ((drain e (redefineChain c old new e r)).chains.get d).observed =
          ((chainRestarted c old new r).chains.get d).observed := by
  have silent : (chainRestarted c old new r).handoffs = [] := by
    rw [chainRestarted_frame]
    exact quiet
  have worked := workRoles_spread (e := e) (chainRestarted c old new r)
  have cues : OnlyCues (workRoles e (chainRestarted c old new r)) :=
    worked.onlyCues fun h hh => absurd (silent ▸ hh) List.not_mem_nil
  have acts : Acts e false false (chainRestarted c old new r) (workRoles e (chainRestarted c old new r)) := workRoles_acts .refl
  have drained := drain_acts_quietly (e := e) (obs := false)
    (acts.noMotionDue fun y hy => absurd (silent ▸ hy) List.not_mem_nil)
  rw [redefineChain_eq]
  exact ⟨worked.trans (drain_spread cues), fun d => (drained.observed_same d).trans (acts.observed_same d)⟩

end

/-- A position named at an old or a new port is in no chain but the one redefined. -/
theorem chainOf_redefined {own : Station} {su : Setup} {c d : Fin 4} {z : Port} {p : Fin 8} {new : Option ChainDef}
    (free : new.any (defineChainConflict own su c) = false) (single : PortsSingle su)
    (named : p ∈ chainPositions (su.chains.get c) ++ chainPositions new)
    (hd : chainOf { su with chains := su.chains.set c new } p = some (d, z)) : d = c := by
  have port := chainOf_port hd
  rw [portPosition_set] at port
  split at port
  · rename_i same
    exact same.symm
  · rename_i other
    rcases List.mem_append.1 named with old | fresh
    · obtain ⟨y, at_old⟩ := mem_chainPositions_at.1 old
      exact (single.unique port at_old).1
    · obtain ⟨x, rfl, at_new⟩ := mem_chainPositions_iff.1 fresh
      obtain ⟨_, _, _, ports_free, _⟩ := defineChain_free (d := x) (by simpa using free)
      exact absurd port (portTaken_eq_false (ports_free p fresh) d (Ne.symm other) z)

end Sys2Proof.Machine

namespace Sys2Proof.Proofs

open Sys2Proof.Machine

/-- R123: an accepted DEFINE CHAIN. -/
theorem defineChain_ends {tag chain station a b caption : Byte} {s : State} {c : Fin 4} {new : Option ChainDef}
    (ha : s.acting) (hq : s.quiet) (free : new.any (defineChainConflict s.port.own s.setup c) = false)
    (answered : reqDefineChain chain station a b caption s = answerDone data10
      ({ s with setup := { s.setup with chains := s.setup.chains.set c new } }.act
        (redefineChain c (s.setup.chains.get c) new))) :
    ∃ t, exec (.defineChain tag chain station a b caption) s = .next t
      ∧ t.port.loopOut = some (s.replyCell 3 tag 0 (Vector.replicate 10 0))
      ∧ t.setup = { s.setup with chains := s.setup.chains.set c new }
      ∧ t.run.chains.get c = State.reset.run.chains.get c
      ∧ (PortsSingle s.setup → ∀ p,
          (∃ z, portPosition s.setup c z = some p)
            ∨ (∃ x, new = some x ∧ (x.port0 = some p ∨ x.port1 = some p)) →
          (s.run.motions.get p).motion ≠ .runup → (s.run.motions.get p).motion ≠ .locked →
          t.run.runoutRaised.get p = false ∧ t.run.tailStopped.get p = false)
      ∧ (∀ d, d ≠ c → (t.run.chains.get d).observed = (s.run.chains.get d).observed)
      ∧ t.run.motions = s.run.motions ∧ LadderKept s t := by
  obtain ⟨t, next, port, _, setup, _, run⟩ := coded_answered (m := payload13 3 tag chain station a b caption) (n := 3)
    (tag := tag) ha answered
  obtain ⟨e, he⟩ : ∃ e : Env, e = { setup := { s.setup with chains := s.setup.chains.set c new }, sweep := s.port.sweep } :=
    ⟨_, rfl⟩
  have ran : t.run = drain e (redefineChain c (s.setup.chains.get c) new e s.run) := by rw [run, he]; rfl
  obtain ⟨spread, observed⟩ := redefineChain_spread (e := e) (c := c) (r := s.run) (s.setup.chains.get c) new hq
  rw [← ran] at spread observed
  have motions := spread.motions
  have frame := chainRestarted_frame (c := c) (r := s.run) (s.setup.chains.get c) new
  have here : (chainRestarted c (s.setup.chains.get c) new s.run).chains.get c = ChainRec.restarted := by
    rw [frame]
    exact (get_set_fin ..).trans (if_pos rfl)
  have stands := spread.chains c (here ▸ ChainRec.restarted_resting)
  refine ⟨t, next, congrArg LoopPort.loopOut port, setup, stands.trans (here.trans (reset_chain c).symm),
    fun single p named unrun unlocked => ?_, fun d other => ?_, ?_, request_ladderKept next (reqDefineChain_written ..)⟩
  · have listed : p ∈ chainPositions (s.setup.chains.get c) ++ chainPositions new :=
      List.mem_append.2 (named.imp mem_chainPositions_at.2 mem_chainPositions_iff.2)
    refine spread.flags p ⟨?_, fun d z hd => ?_⟩ (chainRestarted_flags listed)
    · rw [frame, ← Bool.not_eq_true, running_iff]
      exact fun h => h.elim unrun unlocked
    · rw [he] at hd
      rw [chainOf_redefined free single listed hd, here]
      exact ChainRec.restarted_resting
  · rw [observed d, frame]
    exact congrArg ChainRec.observed ((get_set_fin ..).trans (if_neg (Ne.symm other)))
  · rw [motions, frame]

/-- Settles O32: the chain, restarted in UNKNOWN, and the flags of its positions, at rest, stand through what the roles
bring. -/
theorem defineChainBinds : Obligations.DefineChainBinds := by
  intro tag chain station a b caption s ha hr hq answers moves
  refine ⟨fun bad => ?_, ?_⟩
  · have refused : reqDefineChain chain station a b caption s = refuse .range s := by
      unfold reqDefineChain
      split
      · rename_i d new index read
        rw [indexOf_eq_some] at index
        rcases bad with bad | bad | bad
        · omega
        · exact nomatch read.symm.trans (readChain?_eq_none (.inl bad))
        · exact nomatch read.symm.trans (readChain?_eq_none (.inr bad))
      · rfl
    exact coded_refused (m := payload13 3 tag chain station a b caption) ha hr refused
  · intro c hc busy ends
    have accepted : ∀ new, readChain? station a b caption = some new → ¬ busy → (∀ p ∈ chainPositions new, ¬ moves p) →
        new.any (defineChainConflict s.port.own s.setup c) = false → ends new := fun new read still rest free =>
      defineChain_ends ha hq free ((reqDefineChain_at s hc read).trans ((if_neg fun h => by
        rcases defineChainBusy_iff.1 h with h | ⟨z, p, h⟩ | ⟨p, hp, h⟩
        · exact still (.inl h)
        · exact still (.inr ⟨z, p, h⟩)
        · exact rest p hp h).trans (if_neg (Bool.eq_false_iff.1 free))))
    have refused : ∀ new, readChain? station a b caption = some new → busy ∨ (∃ p ∈ chainPositions new, moves p) →
        answers 4 := fun new read h =>
      coded_refused (m := payload13 3 tag chain station a b caption) ha hr ((reqDefineChain_at s hc read).trans
        (if_pos (defineChainBusy_iff.2 (or_assoc.1 h))))
    refine ⟨fun gone => ?_, fun st x y hs hx hy => ?_⟩
    · have read : readChain? station a b caption = some none := if_pos gone
      exact ⟨fun h => refused none read (.inl h), fun h => accepted none read h nofun rfl⟩
    · have read := readChain?_of (caption := caption) hs hx hy
      have named : ∀ p, p ∈ chainPositions (some { station := st, port0 := x, port1 := y, caption := caption != 0 }) ↔
          x = some p ∨ y = some p := fun p => mem_chainPositions_iff.trans
        ⟨fun ⟨_, same, h⟩ => by obtain rfl := Option.some.inj same; exact h, fun h => ⟨_, rfl, h⟩⟩
      refine ⟨fun h => refused _ read (h.imp_right fun ⟨p, hp, m⟩ => ⟨p, (named p).2 hp, m⟩), fun still rest =>
        ⟨fun taken => ?_, fun free => accepted _ read still (fun p hp => rest p ((named p).1 hp)) ?_⟩⟩
      · refine coded_refused (m := payload13 3 tag chain station a b caption) ha hr ((reqDefineChain_at s hc read).trans
          ((if_neg fun h => ?_).trans (if_pos (defineChainConflict_iff.2 taken))))
        rcases defineChainBusy_iff.1 h with h | ⟨z, p, h⟩ | ⟨p, hp, h⟩
        · exact still (.inl h)
        · exact still (.inr ⟨z, p, h⟩)
        · exact rest p ((named p).1 hp) h
      · rw [Option.any_some, ← Bool.not_eq_true, defineChainConflict_iff]
        exact free

end Sys2Proof.Proofs
end

section
/-! PROOFS. What a report hands to the other blocks, and what the mark detector and the rules make of it (O44). -/

namespace Sys2Proof.Machine

/-! ### What the Motion Tracker hands on (R25, R44) -/

theorem isAdvance_countOf {last : Option (BitVec 16)} {now : BitVec 16} : (countOf last now).isAdvance = true ↔
    ∃ l, last = some l ∧ 1 ≤ (now - l).toNat ∧ (now - l).toNat ≤ 2047 := by
  cases last with
  | none => exact ⟨nofun, fun ⟨_, h, _⟩ => nomatch h⟩
  | some l =>
    obtain ⟨still, advance, jump⟩ := countOf_cases l now
    constructor
    · intro moves
      by_cases zero : (now - l).toNat = 0
      · rw [still zero] at moves
        exact nomatch moves
      · by_cases far : 2048 ≤ (now - l).toNat
        · rw [jump far] at moves
          exact nomatch moves
        · exact ⟨l, rfl, by omega, by omega⟩
    · rintro ⟨_, same, low, high⟩
      obtain rfl := Option.some.inj same
      rw [advance low high]
      rfl

section
variable {m : MotionRec} {w : Nat} {now : Byte} {frames : BitVec 16} {k : Count}

/-- R38: the stall window leaves the motion, or breaks it. -/
theorem stalled_motion : (m.stalled w k).motion = m.motion ∨ (m.stalled w k).motion = .broken := by
  have counted : (m.stallCounted w).motion = m.motion ∨ (m.stallCounted w).motion = .broken := by
    unfold MotionRec.stallCounted
    dsimp only
    split
    · exact .inr rfl
    · exact .inl rfl
  unfold MotionRec.stalled
  split
  · cases k with
    | advance d => exact .inl rfl
    | first | still | jump => exact counted
  · exact .inl rfl

end

section
variable {e : Env} {p : Fin 8} {r : Run}

/-- R44: the three hand-offs of a report. -/
theorem takeReport_hands (now : Byte) (frames : BitVec 16) : ∃ advance judged,
    .lampReport p (sigLamp now) (sigDowser now) ∈ (takeReport e p now frames r).handoffs
      ∧ .cueReport p (sigDot now) advance ∈ (takeReport e p now frames r).handoffs
      ∧ .ruleReport p now judged ∈ (takeReport e p now frames r).handoffs
      ∧ advance = ((countOf (r.motions.get p).lastCount frames).isAdvance
          && ((takeReport e p now frames r).motions.get p).referenced)
      ∧ (((takeReport e p now frames r).motions.get p).motion ≠ .broken →
          judged = ((takeReport e p now frames r).motions.get p).motion) := by
  obtain ⟨k, hk⟩ : ∃ k, k = countOf (r.motions.get p).lastCount frames := ⟨_, rfl⟩
  obtain ⟨r1, moved⟩ : ∃ r1, r1 = motionStep e p now k
      (countStep e p frames k (gapStep e p (r.hand (.lampReport p (sigLamp now) (sigDowser now))))) := ⟨_, rfl⟩
  obtain ⟨r2, signalled⟩ : ∃ r2, r2 = (stallStep e p k r1).modMotion p (fun m => { m with signals := now }) := ⟨_, rfl⟩
  have taken : takeReport e p now frames r = (handIfChanged e p (r.motions.get p) r2).handAll
      (reportHandoffs p now (k.isAdvance && (r2.motions.get p).referenced) (motionOf r1 p)) := by
    rw [signalled, moved, hk]
    rfl
  have tracked : Tracked (r.hand (.lampReport p (sigLamp now) (sigDowser now))) (handIfChanged e p (r.motions.get p) r2) := by
    rw [signalled, moved]
    exact handIfChanged_tracked p _ ((stallStep_tracked p _ (motionStep_tracked p now _
      (countStep_tracked p frames _ (gapStep_tracked p (.refl _))))).motion p _)
  have motions : (takeReport e p now frames r).motions = r2.motions := by
    rw [taken, Run.handAll_motions, handIfChanged_motions]
  have stall : (r2.motions.get p).motion = (r1.motions.get p).motion ∨ (r2.motions.get p).motion = .broken := by
    have own := (stallStep_writes (e := e) (p := p) (r := r1) k).get p
    rw [signalled, Run.modMotion_get, if_pos rfl]
    dsimp only
    rw [own, if_pos rfl]
    exact stalled_motion
  refine ⟨k.isAdvance && (r2.motions.get p).referenced, motionOf r1 p, ?_, ?_, ?_, ?_, fun unbroken => ?_⟩
  · rw [taken]
    refine List.mem_append_left _ (tracked.handed.subset ?_)
    exact List.mem_append_right _ (List.mem_singleton.2 rfl)
  · rw [taken]
    exact List.mem_append_right _ (List.mem_append_left _ (List.mem_append_left _ (List.mem_singleton.2 rfl)))
  · rw [taken]
    exact List.mem_append_right _ (List.mem_append_right _ (List.mem_singleton.2 rfl))
  · rw [motions, hk]
  · rw [motions] at unbroken ⊢
    exact (stall.resolve_right unbroken).symm

/-! ### The mark detector (R98, R99) -/

theorem SameRuns.trans {a b c : ScanRec} (h : SameRuns a b) (g : SameRuns b c) : SameRuns a c := by
  obtain ⟨dot, clear, preceding⟩ := h
  obtain ⟨dot', clear', preceding'⟩ := g
  exact ⟨dot'.trans dot, clear'.trans clear, preceding'.trans preceding⟩

theorem countMark_runs (q : Fin 8) : SameRuns (r.scans.get q) ((countMark e p r).scans.get q) := by
  unfold countMark
  split
  · rw [Run.modScan_get]
    split
    · rename_i same
      subst same
      exact ⟨rfl, rfl, rfl⟩
    · exact ⟨rfl, rfl, rfl⟩
  · exact ⟨rfl, rfl, rfl⟩

/-- A report event moves the runs by its DOT signal alone. -/
theorem takeCueReport_runs (defined : (e.setup.positions.get p).isSome = true) (dot advance : Bool) (q : Fin 8) :
    SameRuns ((r.modScan p (ScanRec.takeDot dot)).scans.get q) ((takeCueReport e p dot advance r).scans.get q) := by
  have same : ∀ r : Run, SameRuns (r.scans.get q) (r.scans.get q) := fun _ => ⟨rfl, rfl, rfl⟩
  have marked : ∀ b : Bool, SameRuns ((r.modScan p (ScanRec.takeDot dot)).scans.get q)
      ((if b then countMark e p (r.modScan p (ScanRec.takeDot dot)) else r.modScan p (ScanRec.takeDot dot)).scans.get q) := by
    intro b
    split
    · exact countMark_runs q
    · exact same _
  unfold takeCueReport definedPos
  rw [if_pos defined]
  dsimp only
  split
  · exact (marked _).trans ((evaluate_walked .change p _).spread.runs q)
  · exact marked _

theorem takeDot_set (x : ScanRec) : (x.takeDot true).dotRun = min 7 (x.dotRun + 1)
    ∧ (x.dotRun = 0 → (x.takeDot true).precedingClear = x.clearRun ∧ (x.takeDot true).clearRun = 0)
    ∧ (x.dotRun ≠ 0 → (x.takeDot true).precedingClear = x.precedingClear ∧ (x.takeDot true).clearRun = x.clearRun) := by
  unfold ScanRec.takeDot
  by_cases first : x.dotRun = 0
  · simp [first]
  · simp [first]

/-! ### The rules' counters (R141, R143) -/

theorem fits_iff {x : Qualifier} {m : Motion} :
    x.fits m = true ↔ (x = .moving → m = .runup ∨ m = .locked) ∧ (x = .stopped → m = .stopped) := by
  cases x <;> cases m <;> simp [Qualifier.fits, Motion.running]

theorem countRule_counter (w : Byte) (m : Motion) (i j : Fin 16) (q : Fin 8) :
    ((countRule e p w m r j).counters.get i).get q =
      if j = i ∧ p = q ∧ (e.setup.rules.get j).covers p = true
      then (e.setup.rules.get j).nextCount w m ((r.counters.get j).get p) else (r.counters.get i).get q := by
  unfold countRule
  dsimp only
  by_cases covered : (e.setup.rules.get j).covers p = true
  · rw [if_pos covered]
    unfold setCounter counterOf
    dsimp only
    rw [get_set_fin]
    by_cases same : j = i
    · subst same
      rw [if_pos rfl, get_set_fin]
      exact ite_of_iff ⟨fun h => ⟨rfl, h, covered⟩, fun h => h.2.1⟩
    · rw [if_neg same, if_neg fun h => same h.1]
  · rw [if_neg covered, if_neg fun h => covered h.2.2]

theorem foldl_countRule_counter (w : Byte) (m : Motion) (i : Fin 16) (q : Fin 8) (l : List (Fin 16)) (nodup : l.Nodup) :
    ((l.foldl (countRule e p w m) r).counters.get i).get q =
      if i ∈ l ∧ p = q ∧ (e.setup.rules.get i).covers p = true
      then (e.setup.rules.get i).nextCount w m ((r.counters.get i).get p) else (r.counters.get i).get q := by
  induction l generalizing r with
  | nil => exact (if_neg fun h => nomatch h.1).symm
  | cons j l ih =>
    obtain ⟨fresh, nodup⟩ := List.nodup_cons.1 nodup
    rw [List.foldl_cons, ih nodup]
    by_cases first : j = i
    · subst first
      rw [if_neg fun h => fresh h.1, countRule_counter]
      exact ite_of_iff ⟨fun h => ⟨List.mem_cons_self .., h.2⟩, fun h => ⟨rfl, h.2⟩⟩
    · have kept : ∀ a, ((countRule e p w m r j).counters.get i).get a = (r.counters.get i).get a := fun a =>
        (countRule_counter w m i j a).trans (if_neg fun h => first h.1)
      rw [kept, kept]
      refine ite_of_iff ⟨fun h => ⟨List.mem_cons_of_mem _ h.1, h.2⟩, fun h => ⟨?_, h.2⟩⟩
      exact (List.mem_cons.1 h.1).resolve_left (Ne.symm first)

theorem allRules_nodup : allRules.Nodup := by decide

theorem ruleCounted_counter (w : Byte) (m : Motion) (i : Fin 16) (q : Fin 8) :
    ((ruleCounted e p w m r).counters.get i).get q =
      if p = q ∧ (e.setup.rules.get i).covers p = true
      then (e.setup.rules.get i).nextCount w m ((r.counters.get i).get p) else (r.counters.get i).get q :=
  (foldl_countRule_counter w m i q allRules allRules_nodup).trans
    (ite_of_iff ⟨And.right, fun h => ⟨mem_allRules i, h⟩⟩)

theorem queueFor_spread (q : Fin 8) (o : Order) (r : Run) : Spread e r (queueFor e q o r) :=
  .of_lamp ((LampSide.refl r).queueFor q o)

theorem ruleAct_spread (j : Fin 16) (r : Run) : Spread e r (ruleAct e p r j) := by
  have stops : Spread e r (stopAction e p r) := (queueFor_spread p _ r).trans (queueFor_spread p _ _)
  unfold ruleAct
  split
  · exact .refl r
  · exact queueFor_spread p _ r
  · exact stops
  · unfold lossAction
    split
    · exact takeFault_spread p r
    · exact stops

/-- R143: the raise and the actions leave the counters. -/
theorem takeRuleReport_counters (w : Byte) (m : Motion) :
    (takeRuleReport e p w m r).counters = (ruleCounted e p w m r).counters := by
  unfold takeRuleReport
  dsimp only
  split
  · rfl
  · refine (foldl_spread (fun r j => ruleAct_spread j r) _ _).counters.trans ?_
    rw [raiseRule_frame]
    rfl

end

end Sys2Proof.Machine

namespace Sys2Proof.Proofs

open Sys2Proof.Machine

/-- Settles O44: the Motion Tracker touches no other block's records; the detector's runs are moved before the mark is
counted and the reel walked, the counters before anything fires. -/
theorem reportHandedToBlocks : Obligations.ReportHandedToBlocks := by
  refine ⟨?_, ?_, ?_⟩
  · intro st m x p s ha hq hst hp first
    obtain ⟨advance, judged, lamp, cue, rule, advances, motion⟩ :=
      takeReport_hands (e := s.env) (p := p) (r := s.run) m[0] (m[1] ++ m[2])
    obtain ⟨t, next, run⟩ : ∃ t, exec (.returnState st m) s = .next t ∧ t.run = drain s.env (reportTaken p m s) :=
      ⟨_, exec_returnState ha hst hp first, by rw [judged_run]⟩
    have tracked : Tracked s.run (reportTaken p m s) := takeReport_tracked p _ _ (.refl _)
    have frame := tracked.frame
    refine ⟨t, reportTaken p m s, advance, judged, next, run, lamp, cue, rule, ?_, motion, ?_, ?_,
      ?_, ?_, ?_, ?_⟩
    · rw [advances, Bool.and_eq_true, isAdvance_countOf]
      exact and_comm
    all_goals rw [frame]
  · intro e p dot advance r defined
    dsimp only
    have runs := takeCueReport_runs (e := e) (r := r) defined dot advance
    obtain ⟨dotRun, clearRun, preceding⟩ := runs p
    rw [Run.modScan_get, if_pos rfl] at dotRun clearRun preceding
    refine ⟨fun on => ?_, fun off => ?_, fun q other => ?_⟩
    · subst on
      obtain ⟨up, starts, goes⟩ := takeDot_set (r.scans.get p)
      exact ⟨dotRun.trans up, fun h => (starts h).imp preceding.trans clearRun.trans,
        fun h => (goes h).imp preceding.trans clearRun.trans⟩
    · subst off
      exact ⟨dotRun, clearRun, preceding⟩
    · obtain ⟨dotRun, clearRun, preceding⟩ := runs q
      rw [Run.modScan_get, if_neg (Ne.symm other)] at dotRun clearRun preceding
      exact ⟨dotRun, clearRun, preceding⟩
  · intro e p w motion r i q
    dsimp only
    refine (congrArg (fun n => (n.get i).get q) (takeRuleReport_counters w motion)).trans ?_
    rw [ruleCounted_counter]
    have covers : (e.setup.rules.get i).covers p = true ↔
        (e.setup.rules.get i).active = true ∧ (e.setup.rules.get i).positions.getLsbD p.val = true := Bool.and_eq_true_iff
    by_cases covered : p = q ∧ (e.setup.rules.get i).covers p = true
    · obtain ⟨rfl, cover⟩ := covered
      rw [if_pos ⟨rfl, cover⟩, if_pos ⟨rfl, covers.1 cover⟩]
      unfold Rule.nextCount Rule.matchesSignals
      refine ite_of_iff ?_
      rw [Bool.and_eq_true, fits_iff, beq_iff_eq, and_assoc]
    · rw [if_neg covered, if_neg fun h => covered ⟨h.1.symm, covers.2 h.2⟩]

end Sys2Proof.Proofs
end

section
/-! PROOFS. A lamp report taken by the Lamp Unit (O45). -/

namespace Sys2Proof.Machine

/-! ### What a lamp report leaves alone -/

/-- The dowser, the pending LAMP DOWN and the dwell counter stay. -/
def SameWatch (a b : LampRec) : Prop := b.dowser = a.dowser ∧ b.downPending = a.downPending ∧ b.dwell = a.dwell

/-- The Lamp Unit acting on a LAMP signal: of p's record all but the watch on its dowser may change. -/
structure Signalled (p : Fin 8) (r0 r : Run) : Prop where
  frame : r = { r0 with lamps := r.lamps, strikeQueue := r.strikeQueue, gate := r.gate, orders := r.orders
                        slots := r.slots, handoffs := r.handoffs }
  watch : SameWatch (r0.lamps.get p) (r.lamps.get p)

/-- PRIMED and READY stand as worked afresh. -/
def Worked (e : Env) (p : Fin 8) (r : Run) : Prop :=
  (r.lamps.get p).primed = primedNow e.setup r p ∧ (r.lamps.get p).ready = readyNow r p

section
variable {e : Env} {p q : Fin 8} {r0 r r' : Run}

theorem Signalled.refl (r : Run) : Signalled p r r := ⟨rfl, rfl, rfl, rfl⟩

theorem Signalled.trans (h : Signalled p r0 r) (g : Signalled p r r') : Signalled p r0 r' := by
  obtain ⟨dowser, down, dwell⟩ := h.watch
  obtain ⟨dowser', down', dwell'⟩ := g.watch
  exact ⟨by rw [g.frame, h.frame], dowser'.trans dowser, down'.trans down, dwell'.trans dwell⟩

theorem Signalled.modLamp {f : LampRec → LampRec} (hf : ∀ l, SameWatch l (f l)) (h : Signalled p r0 r) :
    Signalled p r0 (r.modLamp q f) := by
  refine h.trans ⟨rfl, ?_⟩
  rw [Run.modLamp_get]
  split
  · rename_i same
    subst same
    exact hf _
  · exact ⟨rfl, rfl, rfl⟩

theorem Signalled.of_same (h : Signalled p r0 r) (lamps : r'.lamps = r.lamps) (frame : r' = { r with
    strikeQueue := r'.strikeQueue, gate := r'.gate, orders := r'.orders, slots := r'.slots, handoffs := r'.handoffs }) :
    Signalled p r0 r' :=
  h.trans ⟨by rw [frame], by rw [lamps]; exact ⟨rfl, rfl, rfl⟩⟩

theorem queueFor_frame (q : Fin 8) (o : Order) : queueFor e q o r = { r with orders := (queueFor e q o r).orders } := by
  unfold queueFor
  split <;> rfl

theorem workConditions_lamp (q : Fin 8) : (workConditions e p r).lamps.get q =
    if p = q then { r.lamps.get p with primed := primedNow e.setup r p, ready := readyNow r p } else r.lamps.get q := by
  unfold workConditions publish
  rw [Run.handAll_lamps, Run.modLamp_get]

theorem workConditions_frame : workConditions e p r = { r with
    lamps := (workConditions e p r).lamps, handoffs := (workConditions e p r).handoffs } := rfl

theorem Signalled.work (h : Signalled p r0 r) : Signalled p r0 (workConditions e q r) := by
  refine h.trans ⟨rfl, ?_⟩
  rw [workConditions_lamp]
  split
  · rename_i same
    subst same
    exact ⟨rfl, rfl, rfl⟩
  · exact ⟨rfl, rfl, rfl⟩

/-- R54: the run of a strike granted, before its conditions are worked. -/
def granted (e : Env) (q : Fin 8) (r : Run) : Run :=
  queueFor e q .lampUp (((r.leaveStrike q).modLamp q
    (fun l => { l with lamp := .striking, strikeTimer := some 0 })).setGate (.striking q))

theorem grantTo_eq : grantTo e q r = workConditions e q (granted e q r) := rfl

theorem granted_lamps : (granted e q r).lamps = (r.modLamp q fun l => { l with lamp := .striking, strikeTimer := some 0 }).lamps := by
  unfold granted
  rw [queueFor_frame]
  rfl

theorem granted_motions : (granted e q r).motions = r.motions := by
  unfold granted
  rw [queueFor_frame]
  rfl

theorem Signalled.grant (h : Signalled p r0 r) : Signalled p r0 (grantTo e q r) := by
  have struck : Signalled p r0 (r.modLamp q fun l => { l with lamp := .striking, strikeTimer := some 0 }) :=
    h.modLamp fun _ => ⟨rfl, rfl, rfl⟩
  rw [grantTo_eq]
  refine (struck.of_same granted_lamps ?_).work
  unfold granted
  rw [queueFor_frame]
  rfl

theorem Signalled.offer (h : Signalled p r0 r) : Signalled p r0 (offerGrant e r) := by
  unfold offerGrant
  split
  · split
    · exact h.grant
    · exact h
  · exact h
  · exact h

theorem Signalled.endStrike (h : Signalled p r0 r) : Signalled p r0 (endStrikeOf e q r) := by
  unfold endStrikeOf
  split
  · unfold enterGap
    split
    · exact Signalled.offer (h.of_same (r' := r.setGate .free) rfl rfl)
    · exact h.of_same rfl rfl
  · exact h

theorem settled_watch (limit : Nat) (l : LampRec) : SameWatch l (l.settled limit) := by
  unfold LampRec.settled
  split <;> exact ⟨rfl, rfl, rfl⟩

theorem Signalled.settle (h : Signalled p r0 r) : Signalled p r0 (enterSettling e q r) := by
  have settled := h.modLamp (q := q) (settled_watch e.setup.params.lampSettle)
  unfold enterSettling
  dsimp only
  split
  · exact settled.of_same rfl rfl
  · exact settled

theorem lampSignal_signalled (lamp : Bool) : Signalled p r (lampSignal e p lamp r) := by
  have lost : Signalled p r (lampLost e p r) := by
    have dark : Signalled p r (r.modLamp p (fun l => { l with lamp := .dark, settle := none, fault := true })) :=
      (Signalled.refl r).modLamp fun _ => ⟨rfl, rfl, rfl⟩
    unfold lampLost
    dsimp only
    rw [raisePosition_frame]
    exact dark.of_same rfl rfl
  have left : Signalled p r (r.leaveStrike p) := (Signalled.refl r).of_same rfl rfl
  unfold lampSignal
  dsimp only
  split
  · exact (Signalled.refl r).modLamp fun _ => ⟨rfl, rfl, rfl⟩
  · exact (Signalled.refl r).modLamp fun _ => ⟨rfl, rfl, rfl⟩
  · split
    · exact .refl r
    · exact (Signalled.refl r).settle
  · split
    · exact .refl r
    · exact left.settle
  · exact .refl r
  · exact .refl r
  · exact (Signalled.refl r).settle.endStrike
  · exact .refl r
  · exact .refl r
  · exact .refl r
  · exact lost
  · exact lost

/-! ### PRIMED and READY (R60) -/

theorem primedNow_congr {su : Setup} {a b : Run} (motions : b.motions = a.motions)
    (lamp : (b.lamps.get p).lamp = (a.lamps.get p).lamp) : primedNow su b p = primedNow su a p := by
  unfold primedNow failed motionOf
  rw [motions, lamp]

theorem readyNow_congr {a b : Run} (motions : b.motions = a.motions) (lamp : (b.lamps.get p).lamp = (a.lamps.get p).lamp)
    (dowser : (b.lamps.get p).dowser = (a.lamps.get p).dowser) : readyNow b p = readyNow a p := by
  unfold readyNow
  dsimp only
  rw [motions, lamp, dowser]

theorem workConditions_worked : Worked e p (workConditions e p r) := by
  have record := (workConditions_lamp (e := e) (p := p) (r := r) p).trans (if_pos rfl)
  constructor
  · rw [record]
    exact (primedNow_congr (a := r) (b := workConditions e p r) rfl (by rw [record])).symm
  · rw [record]
    exact (readyNow_congr (a := r) (b := workConditions e p r) rfl (by rw [record]) (by rw [record])).symm

theorem grantTo_worked (h : Worked e p r) : Worked e p (grantTo e q r) := by
  rw [grantTo_eq]
  by_cases same : q = p
  · subst same
    exact workConditions_worked
  · have record : (workConditions e q (granted e q r)).lamps.get p = r.lamps.get p := by
      rw [workConditions_lamp, if_neg same, granted_lamps, Run.modLamp_get, if_neg same]
    have motions : (workConditions e q (granted e q r)).motions = r.motions := granted_motions
    obtain ⟨primes, readies⟩ := h
    constructor
    · rw [record, primedNow_congr motions (by rw [record])]
      exact primes
    · rw [record, readyNow_congr motions (by rw [record]) (by rw [record])]
      exact readies

theorem offerGrant_worked (h : Worked e p r) : Worked e p (offerGrant e r) := by
  unfold offerGrant
  split
  · split
    · exact grantTo_worked h
    · exact h
  · exact h
  · exact h

end

/-! ### The report (R47) -/

section
variable {e : Env} {p : Fin 8} {lamp dowser : Bool} {r r1 : Run}

/-- R47: the dowser and the pending LAMP DOWN as the report shows them. -/
def watched (p : Fin 8) (lamp dowser : Bool) (r : Run) : Run :=
  r.modLamp p (fun l => { l with downPending := lamp && l.downPending, dowser := if dowser then .opened else .closed })

theorem takeLampReport_eq (signal : lampSignal e p lamp r = r1) : takeLampReport e p lamp dowser r =
    if !lamp && (r1.lamps.get p).downPending && ((workConditions e p (watched p lamp dowser r1)).lamps.get p).lamp == .queued
    then offerGrant e (workConditions e p (watched p lamp dowser r1)) else workConditions e p (watched p lamp dowser r1) := by
  subst signal
  rfl

/-- R47, R60: what every report leaves. -/
theorem takeLampReport_watch : Signalled p (watched p lamp dowser (lampSignal e p lamp r)) (takeLampReport e p lamp dowser r)
    ∧ Worked e p (takeLampReport e p lamp dowser r) := by
  rw [takeLampReport_eq rfl]
  split
  · exact ⟨(Signalled.refl _).work.offer, offerGrant_worked workConditions_worked⟩
  · exact ⟨(Signalled.refl _).work, workConditions_worked⟩

/-- The lamp and all that waits for it as the LAMP signal left them. -/
structure LampLeft (p : Fin 8) (r1 t : Run) : Prop where
  lamp : (t.lamps.get p).lamp = (r1.lamps.get p).lamp
  fault : (t.lamps.get p).fault = (r1.lamps.get p).fault
  strike : (t.lamps.get p).strikeTimer = (r1.lamps.get p).strikeTimer
  settle : (t.lamps.get p).settle = (r1.lamps.get p).settle
  queue : t.strikeQueue = r1.strikeQueue
  gate : t.gate = r1.gate
  orders : t.orders = r1.orders
  slots : t.slots = r1.slots
  handed : ∀ h ∈ r1.handoffs, h ∈ t.handoffs

theorem watched_left : LampLeft p r1 (workConditions e p (watched p lamp dowser r1)) := by
  have record := (workConditions_lamp (e := e) (p := p) (r := watched p lamp dowser r1) p).trans (if_pos rfl)
  have signal : (watched p lamp dowser r1).lamps.get p = { r1.lamps.get p with
      downPending := lamp && (r1.lamps.get p).downPending, dowser := if dowser then .opened else .closed } :=
    (Run.modLamp_get ..).trans (if_pos rfl)
  rw [signal] at record
  refine ⟨?_, ?_, ?_, ?_, rfl, rfl, rfl, rfl, fun h hh => List.mem_append_left _ hh⟩ <;> rw [record]

/-- A report that clears no pending LAMP DOWN of a QUEUED lamp, or finds the gate not FREE, grants nothing. -/
theorem takeLampReport_left (signal : lampSignal e p lamp r = r1) (ungranted : lamp = true
    ∨ (r1.lamps.get p).downPending = false ∨ (r1.lamps.get p).lamp ≠ .queued ∨ r1.gate ≠ .free) :
    LampLeft p r1 (takeLampReport e p lamp dowser r) := by
  have left := watched_left (e := e) (p := p) (lamp := lamp) (dowser := dowser) (r1 := r1)
  rw [takeLampReport_eq signal]
  split
  · rename_i cleared
    simp only [Bool.and_eq_true, Bool.not_eq_true', beq_iff_eq] at cleared
    obtain ⟨⟨clear, pending⟩, queued⟩ := cleared
    have busy : r1.gate ≠ .free := by
      rcases ungranted with h | h | h | h
      · exact nomatch clear.symm.trans h
      · exact nomatch pending.symm.trans h
      · exact absurd (left.lamp.symm.trans queued) h
      · exact h
    rw [offerGrant_busy (by rw [left.gate]; exact busy)]
    exact left
  · exact left

/-- R54: the report that clears the pending LAMP DOWN of the one lamp that waits at a FREE gate. -/
theorem takeLampReport_grants {cls : StrikeClass} (queued : (r.lamps.get p).lamp = .queued)
    (pending : (r.lamps.get p).downPending = true) (free : r.gate = .free)
    (alone : r.strikeQueue = [{ position := p, cls := cls }]) :
    takeLampReport e p false dowser r = grantTo e p (workConditions e p (watched p false dowser r)) := by
  have signal : lampSignal e p false r = r := by
    unfold lampSignal
    dsimp only
    rw [queued]
  have left := watched_left (e := e) (p := p) (lamp := false) (dowser := dowser) (r1 := r)
  have cleared : ((workConditions e p (watched p false dowser r)).lamps.get p).downPending = false := by
    rw [workConditions_lamp, if_pos rfl]
    unfold watched
    rw [Run.modLamp_get, if_pos rfl]
    rfl
  have next : nextStrike (workConditions e p (watched p false dowser r)) = some { position := p, cls := cls } :=
    nextStrike_at (before := []) (after := []) (left.queue.trans alone) cleared nofun fun _ => nofun
  have clears : (!false && (r.lamps.get p).downPending
      && ((workConditions e p (watched p false dowser r)).lamps.get p).lamp == .queued) = true := by
    rw [left.lamp, queued, pending]
    rfl
  have offered := offerGrant_next (e := e) (left.gate.trans free) next
  have reported := takeLampReport_eq (e := e) (dowser := dowser) signal
  rw [if_pos clears] at reported
  exact reported.trans offered

theorem grantTo_leaves {cls : StrikeClass} (alone : r.strikeQueue = [{ position := p, cls := cls }]) :
    ((grantTo e p r).lamps.get p).lamp = .striking ∧ ((grantTo e p r).lamps.get p).strikeTimer = some 0
      ∧ (grantTo e p r).gate = .striking p ∧ (grantTo e p r).strikeQueue = [] ∧ (grantTo e p r).slots = r.slots
      ∧ ∀ d, e.setup.positions.get p = some d → (grantTo e p r).orders = enqueueOrder d.station .lampUp r.orders := by
  have record : (grantTo e p r).lamps.get p = { r.lamps.get p with
      lamp := .striking, strikeTimer := some 0, primed := primedNow e.setup (granted e p r) p, ready := readyNow (granted e p r) p } := by
    rw [grantTo_eq, workConditions_lamp, if_pos rfl, granted_lamps, Run.modLamp_get, if_pos rfl]
  have frame : granted e p r = { ((r.leaveStrike p).modLamp p
      (fun l => { l with lamp := .striking, strikeTimer := some 0 })).setGate (.striking p) with
      orders := (granted e p r).orders } := queueFor_frame ..
  refine ⟨by rw [record], by rw [record], ?_, ?_, ?_, fun d hd => ?_⟩
  · rw [grantTo_eq, workConditions_frame]
    dsimp only
    rw [frame]
    rfl
  · rw [grantTo_eq, workConditions_frame]
    dsimp only
    rw [frame]
    show r.strikeQueue.filter (fun x => x.position != p) = []
    rw [alone]
    exact List.filter_eq_nil_iff.2 fun x hx => by rw [List.mem_singleton.1 hx]; simp
  · rw [grantTo_eq, workConditions_frame]
    dsimp only
    rw [frame]
    rfl
  · exact congrArg Run.orders (queueFor_defined hd .lampUp)

end

/-! ### The LAMP signal (R48 to R50) -/

section
variable {e : Env} {p : Fin 8} {r : Run}

theorem enterSettling_settles : ((enterSettling e p r).lamps.get p).fault = false
    ∧ ((enterSettling e p r).lamps.get p).lamp = (if e.setup.params.lampSettle = 0 then .lit else .settling)
    ∧ ((enterSettling e p r).lamps.get p).settle = (if e.setup.params.lampSettle = 0 then none else some 0)
    ∧ ((enterSettling e p r).lamps.get p).strikeTimer = none
    ∧ enterSettling e p r = { r with lamps := (enterSettling e p r).lamps, handoffs := (enterSettling e p r).handoffs } := by
  have record : (enterSettling e p r).lamps.get p = (r.lamps.get p).settled e.setup.params.lampSettle := by
    unfold enterSettling
    dsimp only
    split
    · exact (Run.modLamp_get ..).trans (if_pos rfl)
    · exact (Run.modLamp_get ..).trans (if_pos rfl)
  have frame : enterSettling e p r = { r with lamps := (enterSettling e p r).lamps, handoffs := (enterSettling e p r).handoffs } := by
    unfold enterSettling
    dsimp only
    split <;> rfl
  rw [record]
  unfold LampRec.settled
  split
  · exact ⟨rfl, rfl, rfl, rfl, frame⟩
  · exact ⟨rfl, rfl, rfl, rfl, frame⟩

theorem lampSignal_adopts (lamp : Bool) (h : (r.lamps.get p).lamp = .unreported) :
    lampSignal e p lamp r = r.modLamp p (fun l => { l with lamp := if lamp then .lit else .dark }) := by
  unfold lampSignal
  dsimp only
  rw [h]
  cases lamp <;> rfl

theorem lampSignal_settles (down : (r.lamps.get p).downPending = false) :
    ((r.lamps.get p).lamp = .dark → lampSignal e p true r = enterSettling e p r)
      ∧ ((r.lamps.get p).lamp = .queued → lampSignal e p true r = enterSettling e p (r.leaveStrike p)) := by
  constructor <;> intro h <;> unfold lampSignal <;> dsimp only <;> rw [h] <;> dsimp only <;> rw [down] <;> rfl

theorem lampSignal_strikingLit (h : (r.lamps.get p).lamp = .striking) :
    lampSignal e p true r = endStrikeOf e p (enterSettling e p r) := by
  unfold lampSignal
  dsimp only
  rw [h]

theorem lampSignal_loses (h : (r.lamps.get p).lamp = .settling ∨ (r.lamps.get p).lamp = .lit) :
    lampSignal e p false r = lampLost e p r := by
  unfold lampSignal
  dsimp only
  rcases h with h | h <;> rw [h]

/-- R50: what an unordered lamp loss leaves. -/
theorem lampLost_leaves : (lampLost e p r).handoffs = r.handoffs ++ [.chainLampFault p] ++ [.chainFault p]
    ∧ lampLost e p r = { r with lamps := (lampLost e p r).lamps, slots := (lampLost e p r).slots
                                handoffs := (lampLost e p r).handoffs }
    ∧ (lampLost e p r).slots = (raisePosition e (slotLamp p) p r).slots
    ∧ (lampLost e p r).lamps.get p = { r.lamps.get p with lamp := .dark, settle := none, fault := true } := by
  have raised : (raisePosition e (slotLamp p) p
      (r.modLamp p (fun l => { l with lamp := .dark, settle := none, fault := true }))).slots
      = (raisePosition e (slotLamp p) p r).slots := raise_slots_congr rfl
  have record := Run.modLamp_get p (fun l => { l with lamp := .dark, settle := none, fault := true }) r p
  unfold lampLost
  dsimp only
  rw [raisePosition_frame (r := r.modLamp p _)]
  exact ⟨rfl, rfl, raised, record.trans (if_pos rfl)⟩

/-- The signals that leave a lamp as it was. -/
theorem lampSignal_same {lamp : Bool} (h : ((r.lamps.get p).lamp = .dark ∨ (r.lamps.get p).lamp = .queued)
      ∧ (lamp = false ∨ (r.lamps.get p).downPending = true)
    ∨ (r.lamps.get p).lamp = .striking ∧ lamp = false
    ∨ ((r.lamps.get p).lamp = .settling ∨ (r.lamps.get p).lamp = .lit) ∧ lamp = true) : lampSignal e p lamp r = r := by
  unfold lampSignal
  dsimp only
  rcases h with ⟨h | h, rfl | down⟩ | ⟨h, rfl⟩ | ⟨h | h, rfl⟩ <;> rw [h]
  · cases lamp with
    | false => rfl
    | true => exact if_pos down
  · cases lamp with
    | false => rfl
    | true => exact if_pos down

end

end Sys2Proof.Machine

namespace Sys2Proof.Proofs

open Sys2Proof.Machine

/-- Settles O45: each conjunct is one branch of the LAMP signal, the watch and the conditions worked after it. -/
theorem reportMovesLamp : Obligations.ReportMovesLamp := by
  intro e p lamp dowser r l t y settles keeps
  have signal := lampSignal_signalled (e := e) (p := p) (r := r) lamp
  obtain ⟨worked, primes, readies⟩ := takeLampReport_watch (e := e) (p := p) (lamp := lamp) (dowser := dowser) (r := r)
  have frame : t = { r with lamps := t.lamps, strikeQueue := t.strikeQueue, gate := t.gate, orders := t.orders
                            slots := t.slots, handoffs := t.handoffs } := by
    have after := worked.frame
    unfold watched at after
    rw [signal.frame] at after
    exact after
  obtain ⟨_, down, dwell⟩ := signal.watch
  obtain ⟨dowser', down', dwell'⟩ := worked.watch
  have record : (watched p lamp dowser (lampSignal e p lamp r)).lamps.get p = { (lampSignal e p lamp r).lamps.get p with
      downPending := lamp && ((lampSignal e p lamp r).lamps.get p).downPending, dowser := if dowser then .opened else .closed } :=
    (Run.modLamp_get ..).trans (if_pos rfl)
  rw [record] at dowser' down' dwell'
  have same : (lampSignal e p lamp r = r) → (lamp = true ∨ l.downPending = false ∨ l.lamp ≠ .queued ∨ r.gate ≠ .free) →
      keeps ∧ t.slots = r.slots ∧ t.orders = r.orders := fun stays ungranted =>
    have left := takeLampReport_left (dowser := dowser) stays ungranted
    ⟨⟨left.lamp, left.fault, left.strike, left.settle, left.queue, left.gate⟩, left.slots, left.orders⟩
  refine ⟨dowser', ?_, dwell'.trans dwell, primes, readies, ?_, ?_, ?_, ?_, ?_, ?_, ?_, ?_, ?_, ?_, ?_, ?_⟩
  · exact down'.trans ((congrArg (lamp && ·) down).trans (Bool.and_comm ..))
  · rw [frame]
  · rw [frame]
  · rw [frame]
  · rw [frame]
  · intro unreported
    have adopts := lampSignal_adopts (e := e) lamp unreported
    have left := takeLampReport_left (dowser := dowser) adopts (.inr (.inr (.inl (by
      rw [Run.modLamp_get, if_pos rfl]
      cases lamp <;> exact nofun))))
    obtain ⟨adopted, fault, strike, settle, _, gate, orders, slots, _⟩ := left
    rw [Run.modLamp_get, if_pos rfl] at adopted fault strike settle
    exact ⟨adopted, fault, settle, strike, slots, orders, gate⟩
  · intro waits on pending
    subst on
    obtain ⟨from_dark, from_queue⟩ := lampSignal_settles (e := e) pending
    rcases waits with dark | queued
    · obtain ⟨fault, lit, settle, -, frame⟩ := enterSettling_settles (e := e) (p := p) (r := r)
      have left := takeLampReport_left (dowser := dowser) (from_dark dark) (.inl rfl)
      rw [if_neg (by rw [dark]; exact nofun)]
      refine ⟨⟨left.fault.trans fault, left.lamp.trans lit, left.settle.trans settle⟩, left.queue.trans ?_, left.gate.trans ?_,
        left.slots.trans ?_, left.orders.trans ?_⟩ <;> rw [frame]
    · obtain ⟨fault, lit, settle, -, frame⟩ := enterSettling_settles (e := e) (p := p) (r := r.leaveStrike p)
      have left := takeLampReport_left (dowser := dowser) (from_queue queued) (.inl rfl)
      rw [if_pos queued]
      refine ⟨⟨left.fault.trans fault, left.lamp.trans lit, left.settle.trans settle⟩, left.queue.trans ?_, left.gate.trans ?_,
        left.slots.trans ?_, left.orders.trans ?_⟩ <;> rw [frame] <;> rfl
  · intro dark stays
    exact same (lampSignal_same (.inl ⟨.inl dark, stays⟩)) (.inr (.inr (.inl (by rw [dark]; exact nofun))))
  · rintro queued (⟨off, free | busy⟩ | ⟨on, pending⟩)
    · exact same (lampSignal_same (.inl ⟨.inr queued, .inl off⟩)) (.inr (.inl free))
    · exact same (lampSignal_same (.inl ⟨.inr queued, .inl off⟩)) (.inr (.inr (.inr busy)))
    · exact same (lampSignal_same (.inl ⟨.inr queued, .inr pending⟩)) (.inl on)
  · intro cls queued off pending free alone
    subst off
    have grants := takeLampReport_grants (e := e) (dowser := dowser) queued pending free alone
    have left := watched_left (e := e) (p := p) (lamp := false) (dowser := dowser) (r1 := r)
    obtain ⟨striking, timer, gate, queue, slots, orders⟩ := grantTo_leaves (e := e) (left.queue.trans alone)
    have taken : t = grantTo e p (workConditions e p (watched p false dowser r)) := grants
    refine ⟨?_, ?_, ?_, ?_, ?_, fun d hd => ?_⟩
    · exact (congrArg (fun u : Run => (u.lamps.get p).lamp) taken).trans striking
    · exact (congrArg (fun u : Run => (u.lamps.get p).strikeTimer) taken).trans timer
    · rw [taken, gate]
    · rw [taken, queue]
    · rw [taken, slots]
      exact left.slots
    · rw [taken, orders d hd, left.orders]
  · intro striking on gate gap
    subst on
    obtain ⟨fault, lit, settle, timer, frame⟩ := enterSettling_settles (e := e) (p := p) (r := r)
    have ends : lampSignal e p true r = (enterSettling e p r).setGate (.gap 0) := by
      have open_gate : (enterSettling e p r).gate = .striking p := by rw [frame]; exact gate
      rw [lampSignal_strikingLit striking]
      unfold endStrikeOf enterGap
      rw [if_pos open_gate, if_neg (Nat.ne_of_gt gap)]
    have left := takeLampReport_left (dowser := dowser) ends (.inl rfl)
    refine ⟨⟨left.fault.trans fault, left.lamp.trans lit, left.settle.trans settle⟩, left.strike.trans timer, left.gate,
      left.queue.trans ?_, left.slots.trans ?_, left.orders.trans ?_⟩ <;> rw [frame] <;> rfl
  · rintro (⟨striking, off⟩ | ⟨burns, on⟩)
    · exact same (lampSignal_same (.inr (.inl ⟨striking, off⟩))) (.inr (.inr (.inl (by rw [striking]; exact nofun))))
    · exact same (lampSignal_same (.inr (.inr ⟨burns, on⟩))) (.inl on)
  · intro burns off
    subst off
    have loses := lampSignal_loses (e := e) burns
    obtain ⟨lost, frame, raised, record⟩ := lampLost_leaves (e := e) (p := p) (r := r)
    have left := takeLampReport_left (dowser := dowser) loses (.inr (.inr (.inl (by rw [record]; exact nofun))))
    refine ⟨left.lamp.trans (by rw [record]), left.settle.trans (by rw [record]), left.fault.trans (by rw [record]),
      left.slots.trans raised, left.handed _ ?_, left.handed _ ?_, left.orders.trans (by rw [frame]),
      left.queue.trans (by rw [frame]), left.gate.trans (by rw [frame])⟩ <;> rw [lost]
    · exact List.mem_append_right _ (List.mem_singleton.2 rfl)
    · exact List.mem_append_left _ (List.mem_append_right _ (List.mem_singleton.2 rfl))

end Sys2Proof.Proofs
end

section
/-! PROOFS. The counts of a sweep end, and what falls due of them (O48). -/

namespace Sys2Proof.Machine

/-! ### The counts on the records (R13) -/

/-- R35, R36, R41: one position's motion record counted. -/
def MotionRec.swept (missed : Bool) (m : MotionRec) : MotionRec :=
  if missed then m.countRunup.countStop.countMiss else m.countRunup.countStop

/-- R52, R55, R59: one position's lamp record counted. -/
def LampRec.swept (dwells : Bool) (l : LampRec) : LampRec :=
  LampRec.countSettle (LampRec.countStrike { l with dwell := if dwells then l.dwell + 1 else 0 })

/-- R108, R114: one chain's record counted. -/
def ChainRec.swept (limit : Nat) (x : ChainRec) : ChainRec :=
  let y := if x.state = .holding then { x with holdTimer := x.holdTimer.count limit } else x
  if y.state = .switching then { y with switchTimer := y.switchTimer.map (· + 1) } else y

/-- Each step of a fold touches its own entry alone. -/
theorem foldl_pointwise {n : Nat} {α : Type} {g : Run → Fin n → α} {f : Run → Fin n → Run} {h : Fin n → α → α}
    (own : ∀ r a, g (f r a) a = h a (g r a)) (other : ∀ r a b, b ≠ a → g (f r a) b = g r b) {l : List (Fin n)}
    (nodup : l.Nodup) (r : Run) (b : Fin n) : g (l.foldl f r) b = if b ∈ l then h b (g r b) else g r b := by
  induction l generalizing r with
  | nil => rfl
  | cons a l ih =>
    obtain ⟨fresh, nodup⟩ := List.nodup_cons.1 nodup
    rw [List.foldl_cons, ih nodup]
    by_cases same : b = a
    · subst same
      rw [if_neg fresh, if_pos (List.mem_cons_self ..), own]
    · rw [other r a b same]
      exact ite_of_iff ⟨List.mem_cons_of_mem _, fun h => (List.mem_cons.1 h).resolve_left same⟩

section
variable {e : Env} {v : Vector Bool 8} {r : Run} {p q : Fin 8}

theorem countPosition_motion : (countPosition e v r p).motions.get q = if p = q
    then (r.motions.get p).swept (definedPos e.setup p && !(v.get p)) else r.motions.get q := by
  unfold countPosition
  dsimp only
  rw [Run.modMotion_get]
  rfl

theorem countPosition_lamp : (countPosition e v r p).lamps.get q = if p = q
    then (r.lamps.get p).swept (definedPos e.setup p && dwelling r p) else r.lamps.get q := by
  unfold countPosition countDwell
  dsimp only
  rw [Run.modMotion_lamps, Run.modLamp_get, Run.modLamp_get, if_pos rfl, Run.modLamp_get]
  split <;> rfl

theorem allPositions_nodup : allPositions.Nodup := by decide
theorem allChains_nodup : allChains.Nodup := by decide

theorem foldl_frame {n : Nat} {f : Run → Fin n → Run} {put : Run → Run → Run} (idem : ∀ r, r = put r r)
    (comp : ∀ r a b, put (put r a) b = put r b) (one : ∀ r a, f r a = put r (f r a)) (l : List (Fin n)) (r : Run) :
    l.foldl f r = put r (l.foldl f r) := by
  induction l generalizing r with
  | nil => exact idem r
  | cons a l ih =>
    calc l.foldl f (f r a)
      _ = put (f r a) (l.foldl f (f r a)) := ih _
      _ = put (put r (f r a)) (l.foldl f (f r a)) := congrArg (fun x => put x (l.foldl f (f r a))) (one r a)
      _ = put r (l.foldl f (f r a)) := comp ..

/-- The run after the positions have been counted. -/
def positionsSwept (e : Env) (v : Vector Bool 8) (r : Run) : Run := allPositions.foldl (countPosition e v) r

theorem positionsSwept_frame : positionsSwept e v r = { r with
    motions := (positionsSwept e v r).motions, lamps := (positionsSwept e v r).lamps } :=
  foldl_frame (put := fun r t => { r with motions := t.motions, lamps := t.lamps }) (fun _ => rfl) (fun _ _ _ => rfl)
    (fun _ _ => rfl) _ _

theorem positionsSwept_records : ((positionsSwept e v r).motions.get p, (positionsSwept e v r).lamps.get p) =
    ((r.motions.get p).swept (definedPos e.setup p && !(v.get p)),
      (r.lamps.get p).swept (definedPos e.setup p && dwelling r p)) := by
  have both := foldl_pointwise (g := fun r p => (r.motions.get p, r.lamps.get p)) (f := countPosition e v)
    (h := fun p x => (x.1.swept (definedPos e.setup p && !(v.get p)), x.2.swept (definedPos e.setup p
      && ((x.2.lamp == .settling || x.2.lamp == .lit) && x.2.dowser == .opened && x.1.motion == .stopped))))
    (fun r a => by rw [countPosition_motion, countPosition_lamp, if_pos rfl, if_pos rfl]; rfl)
    (fun r a b other => by rw [countPosition_motion, countPosition_lamp, if_neg (Ne.symm other), if_neg (Ne.symm other)])
    allPositions_nodup r p
  rw [if_pos (mem_allPositions p)] at both
  exact both

theorem countChain_frame (c : Fin 4) : countChain e r c = { r with chains := (countChain e r c).chains } := rfl

theorem countChain_chain (c d : Fin 4) : (countChain e r c).chains.get d =
    if c = d then (r.chains.get c).swept (e.setup.modes.get c).holdLimit else r.chains.get d := by
  unfold countChain countSwitch countHold
  rw [Run.modChain_get, Run.modChain_get, if_pos rfl, Run.modChain_get]
  split <;> rfl

/-- What the counts of a sweep end leave. -/
theorem countSweep_frame : countSweep e v r = { r with
    motions := (countSweep e v r).motions, lamps := (countSweep e v r).lamps
    chains := (countSweep e v r).chains, gate := (countGap r).gate } := by
  have chains := foldl_frame (f := countChain e) (put := fun r t => { r with chains := t.chains }) (fun _ => rfl)
    (fun _ _ _ => rfl) (fun _ _ => rfl) allChains (positionsSwept e v r)
  have counted : countSweep e v r = countGap (allChains.foldl (countChain e) (positionsSwept e v r)) := rfl
  have gap : ∀ r : Run, countGap r = { r with gate := (countGap r).gate } := by
    intro r
    unfold countGap
    split <;> rfl
  have gate : ∀ a b : Run, a.gate = b.gate → (countGap a).gate = (countGap b).gate := by
    intro a b same
    unfold countGap
    rw [same]
    split
    · rfl
    · exact same
    · exact same
  have before : (allChains.foldl (countChain e) (positionsSwept e v r)).gate = r.gate := by
    rw [chains, positionsSwept_frame]
  rw [counted, gap, gate _ r before]
  dsimp only
  rw [chains, positionsSwept_frame]

theorem countGap_other (h : ∀ n, r.gate ≠ .gap n) : countGap r = r := by
  unfold countGap
  split
  · rename_i n gap
    exact absurd gap (h n)
  · rfl
  · rfl

theorem countGap_chains : (countGap r).chains = r.chains := by
  unfold countGap
  split <;> rfl

theorem countGap_motions : (countGap r).motions = r.motions := by
  unfold countGap
  split <;> rfl

theorem countGap_lamps : (countGap r).lamps = r.lamps := by
  unfold countGap
  split <;> rfl

theorem countSweep_records : ((countSweep e v r).motions.get p, (countSweep e v r).lamps.get p) =
    ((r.motions.get p).swept (definedPos e.setup p && !(v.get p)),
      (r.lamps.get p).swept (definedPos e.setup p && dwelling r p)) := by
  have chains := foldl_frame (f := countChain e) (put := fun r t => { r with chains := t.chains }) (fun _ => rfl)
    (fun _ _ _ => rfl) (fun _ _ => rfl) allChains (positionsSwept e v r)
  have counted : countSweep e v r = countGap (allChains.foldl (countChain e) (positionsSwept e v r)) := rfl
  rw [counted, countGap_motions, countGap_lamps, chains]
  exact positionsSwept_records

theorem countSweep_motion : (countSweep e v r).motions.get p =
    (r.motions.get p).swept (definedPos e.setup p && !(v.get p)) := congrArg Prod.fst countSweep_records

theorem countSweep_lamp : (countSweep e v r).lamps.get p =
    (r.lamps.get p).swept (definedPos e.setup p && dwelling r p) := congrArg Prod.snd countSweep_records

theorem countSweep_chain (c : Fin 4) : (countSweep e v r).chains.get c =
    (r.chains.get c).swept (e.setup.modes.get c).holdLimit := by
  have swept := foldl_pointwise (g := fun r c => r.chains.get c) (f := countChain e)
    (h := fun c x => x.swept (e.setup.modes.get c).holdLimit)
    (fun r a => (countChain_chain a a).trans (if_pos rfl)) (fun r a b other => (countChain_chain a b).trans (if_neg (Ne.symm other)))
    allChains_nodup (positionsSwept e v r) c
  rw [if_pos (mem_allChains c)] at swept
  have counted : countSweep e v r = countGap (allChains.foldl (countChain e) (positionsSwept e v r)) := rfl
  rw [counted, countGap_chains, swept, positionsSwept_frame]

end

/-! ### The counts in the terms of the claims -/

theorem swept_motion (missed : Bool) (m : MotionRec) : m.swept missed = { m with
    miss := if missed then min 2 (m.miss + 1) else m.miss
    runup := if m.motion = .runup then m.runup.map (· + 1) else m.runup
    stop := if m.motion = .stopping then m.stop.count else m.stop } := by
  unfold MotionRec.swept MotionRec.countRunup MotionRec.countStop MotionRec.countMiss
  cases missed <;> by_cases runs : m.motion = .runup <;> by_cases stops : m.motion = .stopping <;> simp [runs, stops]

theorem swept_lamp (dwells : Bool) (l : LampRec) : l.swept dwells = { l with
    strikeTimer := if l.lamp = .striking then l.strikeTimer.map (· + 1) else l.strikeTimer
    settle := if l.lamp = .settling then l.settle.map (· + 1) else l.settle
    dwell := if dwells then l.dwell + 1 else 0 } := by
  unfold LampRec.swept LampRec.countStrike LampRec.countSettle
  by_cases strikes : l.lamp = .striking <;> by_cases settles : l.lamp = .settling <;> simp [strikes, settles]

theorem swept_chain (limit : Nat) (x : ChainRec) : x.swept limit = { x with
    holdTimer := if x.state = .holding then x.holdTimer.count limit else x.holdTimer
    switchTimer := if x.state = .switching then x.switchTimer.map (· + 1) else x.switchTimer } := by
  unfold ChainRec.swept
  by_cases holds : x.state = .holding <;> by_cases switches : x.state = .switching <;> simp [holds, switches]

/-! ### What is not due stays so while the hand-offs are taken (R35, R36) -/

/-- The motion state and its two timers stay. -/
def SameTimers (a b : MotionRec) : Prop := b.motion = a.motion ∧ b.runup = a.runup ∧ b.stop = a.stop

section
variable {e : Env} {r : Run} {q : Fin 8}

theorem SameTimers.refl (m : MotionRec) : SameTimers m m := ⟨rfl, rfl, rfl⟩

theorem SameTimers.trans {a b c : MotionRec} (h : SameTimers a b) (g : SameTimers b c) : SameTimers a c := by
  obtain ⟨motion, runup, stop⟩ := h
  obtain ⟨motion', runup', stop'⟩ := g
  exact ⟨motion'.trans motion, runup'.trans runup, stop'.trans stop⟩

theorem SameTimers.undue {a b : Run} (h : SameTimers (a.motions.get q) (b.motions.get q)) :
    runupIsDue e q b = runupIsDue e q a ∧ stopIsDue e q b = stopIsDue e q a := by
  obtain ⟨motion, runup, stop⟩ := h
  unfold runupIsDue stopIsDue
  dsimp only
  rw [motion, runup, stop]
  exact ⟨rfl, rfl⟩

theorem becomeSilent_timers (p : Fin 8) : SameTimers (r.motions.get q) ((becomeSilent e p r).motions.get q) := by
  unfold becomeSilent
  split
  · simp only [handChange_motions, Run.hand_motions, raisePosition_motions, Run.modMotion_get]
    split
    · rename_i same; subst same; exact ⟨rfl, rfl, rfl⟩
    · exact .refl _
  · exact .refl _

theorem expireRunup_timers (undue : runupIsDue e q r = false) (p : Fin 8) :
    SameTimers (r.motions.get q) ((expireRunup e p r).motions.get q) := by
  unfold expireRunup
  split
  · rename_i due
    have other : p ≠ q := fun same => by
      subst same
      exact nomatch undue.symm.trans due
    simp only [handChange_motions, Run.hand_motions, Run.modMotion_get, queueFor_motions, raisePosition_motions, if_neg other]
    exact .refl _
  · exact .refl _

theorem expireStop_timers (undue : stopIsDue e q r = false) (p : Fin 8) :
    SameTimers (r.motions.get q) ((expireStop e p r).motions.get q) := by
  unfold expireStop
  split
  · rename_i due
    have other : p ≠ q := fun same => by
      subst same
      exact nomatch undue.symm.trans due
    simp only [raisePosition_motions, Run.modMotion_get, if_neg other]
    exact .refl _
  · exact .refl _

theorem takeHandoff_timers (runup : runupIsDue e q r = false) (stop : stopIsDue e q r = false) (x : Handoff) :
    SameTimers (r.motions.get q) ((takeHandoff e x r).motions.get q) := by
  by_cases tracked : x.block = .motion
  · cases x with
    | silentDue p => exact becomeSilent_timers p
    | runupDue p => exact expireRunup_timers runup p
    | stopDue p => exact expireStop_timers stop p
    | _ => exact nomatch tracked
  · have acts : Acts e false true r (takeHandoff e x r) := takeHandoff_acts x (.inr tracked) .refl
    rw [acts.motions]
    exact .refl _

theorem drain_timers (runup : runupIsDue e q r = false) (stop : stopIsDue e q r = false) :
    SameTimers (r.motions.get q) ((drain e r).motions.get q) := by
  have drained : ∀ n r, runupIsDue e q r = false → stopIsDue e q r = false →
      SameTimers (r.motions.get q) ((drainFor e n r).motions.get q) := by
    intro n
    induction n with
    | zero => exact fun r _ _ => .refl _
    | succ n ih =>
      intro r runup stop
      unfold drainFor
      split
      · exact .refl _
      · rename_i x r1 pick
        have picked : r1.motions.get q = r.motions.get q := by
          obtain ⟨_, _, _, rfl⟩ := pickHandoff_eq pick
          rfl
        have undue := SameTimers.undue (e := e) (a := r) (b := r1) (by rw [picked]; exact .refl _)
        have taken := takeHandoff_timers (undue.1.trans runup) (undue.2.trans stop) x
        have after := taken.undue (e := e)
        rw [← picked]
        exact taken.trans (ih _ (after.1.trans (undue.1.trans runup)) (after.2.trans (undue.2.trans stop)))
  exact drained _ r runup stop

end

/-! ### Nothing due (R35, R36, R41, R52, R55, R56, R59, R108, R114) -/

section
variable {s : State}

/-- The run that the counts of the sweep end leave. -/
def sweepCounted (s : State) : Run := countSweep s.env s.port.reportedPositions s.run

theorem dueMotion_nothing (h : NothingDue s) (p : Fin 8) : dueMotion s.env (sweepCounted s) p = [] := by
  obtain ⟨positions, _, _, _⟩ := h
  obtain ⟨missed, runup, stop, _, _, _⟩ := positions p
  have record : (sweepCounted s).motions.get p = _ := countSweep_motion
  rw [swept_motion] at record
  have few : ∀ {n : Nat} {b : Bool}, n < 2 → (true && decide (2 ≤ n) && b) = false := fun h => by
    rw [decide_eq_false (Nat.not_le.2 h)]
    rfl
  have unsilent : silentIsDue s.env p (sweepCounted s) = false := by
    unfold silentIsDue
    dsimp only
    rw [record]
    cases defined : definedPos s.env.setup p with
    | false => rfl
    | true =>
      rcases missed defined with short | silent
      · cases reported : s.port.reportedPositions.get p with
        | true =>
          rw [reported, if_pos rfl] at short
          exact few short
        | false =>
          rw [reported, if_neg (by decide)] at short
          exact few (Nat.lt_of_le_of_lt (Nat.min_le_right ..) short)
      · simp [silent]
  have unrun : runupIsDue s.env p (sweepCounted s) = false := by
    unfold runupIsDue
    dsimp only
    rw [record]
    by_cases runs : (s.run.motions.get p).motion = .runup
    · dsimp only
      rw [if_pos runs, Bool.and_eq_false_iff]
      refine .inr (reached_eq_false.2 fun n hn => ?_)
      obtain ⟨k, hk, rfl⟩ := Option.map_eq_some_iff.1 hn
      exact runup k runs hk
    · rw [Bool.and_eq_false_iff]
      exact .inl (beq_eq_false_iff_ne.2 runs)
  have unstopped : stopIsDue s.env p (sweepCounted s) = false := by
    unfold stopIsDue
    dsimp only
    rw [record]
    by_cases stops : (s.run.motions.get p).motion = .stopping
    · dsimp only
      rw [if_pos stops, Bool.and_eq_false_iff]
      refine .inr ?_
      cases timer : (s.run.motions.get p).stop with
      | idle | expired => rfl
      | running n => exact decide_eq_false (Nat.not_le.2 (stop n stops timer))
    · rw [Bool.and_eq_false_iff]
      exact .inl (beq_eq_false_iff_ne.2 stops)
  unfold dueMotion
  rw [unsilent, unrun, unstopped]
  rfl

theorem dueLamp_nothing (h : NothingDue s) (p : Fin 8) : dueLamp s.env (sweepCounted s) p = [] := by
  obtain ⟨positions, limit, _, _⟩ := h
  obtain ⟨_, _, _, strike, settle, dwell⟩ := positions p
  have record : (sweepCounted s).lamps.get p = _ := countSweep_lamp
  rw [swept_lamp] at record
  have unstruck : strikeIsDue s.env p (sweepCounted s) = false := by
    unfold strikeIsDue
    dsimp only
    rw [record]
    by_cases strikes : (s.run.lamps.get p).lamp = .striking
    · dsimp only
      rw [if_pos strikes, Bool.and_eq_false_iff]
      refine .inr (reached_eq_false.2 fun n hn => ?_)
      obtain ⟨k, hk, rfl⟩ := Option.map_eq_some_iff.1 hn
      exact strike k strikes hk
    · rw [Bool.and_eq_false_iff]
      exact .inl (beq_eq_false_iff_ne.2 strikes)
  have unsettled : settleIsDue s.env p (sweepCounted s) = false := by
    unfold settleIsDue
    dsimp only
    rw [record]
    by_cases settles : (s.run.lamps.get p).lamp = .settling
    · dsimp only
      rw [if_pos settles, Bool.and_eq_false_iff]
      refine .inr (reached_eq_false.2 fun n hn => ?_)
      obtain ⟨k, hk, rfl⟩ := Option.map_eq_some_iff.1 hn
      exact settle k settles hk
    · rw [Bool.and_eq_false_iff]
      exact .inl (beq_eq_false_iff_ne.2 settles)
  have undwelt : dwellIsDue s.env p (sweepCounted s) = false := by
    unfold dwellIsDue
    rw [record]
    refine decide_eq_false (Nat.not_le.2 ?_)
    dsimp only
    split
    · rename_i dwells
      obtain ⟨defined, dwells⟩ := Bool.and_eq_true_iff.1 dwells
      exact dwell dwells defined
    · exact limit
  unfold dueLamp
  rw [unstruck, unsettled, undwelt]
  rfl

/-- R108: a hold timer short of its limit counts on. -/
theorem holdTimer_counts {limit : Nat} {t : HoldTimer} (short : ∀ n, t = .running n → n + 1 < limit) :
    (∀ n, t = .running n → t.count limit = .running (n + 1)) ∧ ((∀ n, t ≠ .running n) → t.count limit = t) := by
  cases t with
  | idle => exact ⟨nofun, fun _ => rfl⟩
  | expired => exact ⟨nofun, fun _ => rfl⟩
  | running n =>
    refine ⟨fun m same => ?_, fun h => absurd rfl (h n)⟩
    obtain rfl := HoldTimer.running.inj same
    exact if_neg (Nat.not_le.2 (short n rfl))

theorem dueChain_nothing (h : NothingDue s) (c : Fin 4) : dueChain s.env (sweepCounted s) c = [] := by
  obtain ⟨_, _, _, chains⟩ := h
  obtain ⟨unexpired, hold, switch⟩ := chains c
  have record : (sweepCounted s).chains.get c = _ := countSweep_chain c
  rw [swept_chain] at record
  have unheld : holdIsDue c (sweepCounted s) = false := by
    unfold holdIsDue chainState
    rw [record]
    by_cases holds : (s.run.chains.get c).state = .holding
    · dsimp only
      rw [if_pos holds, Bool.and_eq_false_iff]
      refine .inr (beq_eq_false_iff_ne.2 ?_)
      obtain ⟨runs, rests⟩ := holdTimer_counts (t := (s.run.chains.get c).holdTimer) fun n => hold n holds
      cases timer : (s.run.chains.get c).holdTimer with
      | running n => rw [← timer]; exact fun same => nomatch (runs n timer).symm.trans same
      | idle => exact nofun
      | expired => exact absurd timer (unexpired holds)
    · rw [Bool.and_eq_false_iff]
      exact .inl (beq_eq_false_iff_ne.2 holds)
  have unswitched : switchIsDue s.env c (sweepCounted s) = false := by
    unfold switchIsDue chainState
    rw [record]
    by_cases switches : (s.run.chains.get c).state = .switching
    · dsimp only
      rw [if_pos switches, Bool.and_eq_false_iff]
      refine .inr (reached_eq_false.2 fun n hn => ?_)
      obtain ⟨k, hk, rfl⟩ := Option.map_eq_some_iff.1 hn
      exact switch k switches hk
    · rw [Bool.and_eq_false_iff]
      exact .inl (beq_eq_false_iff_ne.2 switches)
  unfold dueChain
  rw [unheld, unswitched]
  rfl

theorem dueAll_nothing (h : NothingDue s) : dueAll s.env (sweepCounted s) = [] := by
  obtain ⟨_, _, gap, _⟩ := id h
  have ungapped : gapIsDue s.env (sweepCounted s) = false := by
    have same : gapIsDue s.env (sweepCounted s) = gapIsDue s.env (countGap s.run) := by
      have gate : (sweepCounted s).gate = (countGap s.run).gate := by
        unfold sweepCounted
        rw [countSweep_frame]
      unfold gapIsDue
      rw [gate]
    exact same.trans (gapIsDue_counted gap)
  unfold dueAll
  rw [ungapped, List.flatMap_eq_nil_iff.2 fun p _ => dueMotion_nothing h p, List.flatMap_eq_nil_iff.2 fun p _ => dueLamp_nothing h p,
    List.flatMap_eq_nil_iff.2 fun c _ => dueChain_nothing h c]
  rfl

/-! ### The sweep end taken (R13) -/

/-- The run of the sweep end before what it hands on is taken. -/
def sweepTaken (s : State) : Run := sweepEnd s.env s.port.reportedPositions s.run

theorem sweepTaken_eq : sweepTaken s = (sweepCounted s).handAll (dueAll s.env (sweepCounted s)) := rfl

theorem exec_sweepEnd (ha : s.acting) (st : Byte) (m : Payload) : exec (.sweepEnd st m) s = .next (State.judged { s with
    port := { s.port with
      reportedPositions := Vector.replicate 8 false, reportedChains := Vector.replicate 4 false
      loopRet := some (Cell.make .tail st m) }
    run := drain s.env (sweepTaken s) }) := by
  have received := receive_acting ha .ret .tail st m
  have passed : receive .ret (Cell.make .tail st m) s = State.judged { (takeTail s) with
      port := (takeTail s).port.leaves .ret (some (Cell.make .tail st m)) } := by
    rw [received]
    rfl
  have carried : exec (.sweepEnd st m) s = .next (receive .ret (Cell.make .tail st m) s) := rfl
  rw [carried, passed]
  rfl

/-- R35: a runup timer short of its limit. -/
theorem sweepTaken_runup {p : Fin 8} {n : Nat} (runs : (s.run.motions.get p).motion = .runup)
    (timer : (s.run.motions.get p).runup = some n) (short : n + 1 < s.setup.params.runupLimit) :
    ((drain s.env (sweepTaken s)).motions.get p).motion = .runup
      ∧ ((drain s.env (sweepTaken s)).motions.get p).runup = some (n + 1) := by
  have counted : (sweepTaken s).motions.get p = _ := countSweep_motion
  rw [swept_motion] at counted
  have motion : ((sweepTaken s).motions.get p).motion = .runup := by rw [counted]; exact runs
  have runup : ((sweepTaken s).motions.get p).runup = some (n + 1) := by
    rw [counted]
    dsimp only
    rw [if_pos runs, timer]
    rfl
  have unrun : runupIsDue s.env p (sweepTaken s) = false := by
    unfold runupIsDue
    dsimp only
    rw [runup]
    exact (congrArg _ (decide_eq_false (Nat.not_le.2 short))).trans (Bool.and_false _)
  have unstopped : stopIsDue s.env p (sweepTaken s) = false := by
    unfold stopIsDue
    dsimp only
    rw [motion]
    rfl
  obtain ⟨motion', runup', _⟩ := drain_timers unrun unstopped
  exact ⟨motion'.trans motion, runup'.trans runup⟩

/-- R36: a stop timer short of its limit. -/
theorem sweepTaken_stop {p : Fin 8} {n : Nat} (stops : (s.run.motions.get p).motion = .stopping)
    (timer : (s.run.motions.get p).stop = .running n) (short : n + 1 < s.setup.params.stopLimit) :
    ((drain s.env (sweepTaken s)).motions.get p).motion = .stopping
      ∧ ((drain s.env (sweepTaken s)).motions.get p).stop = .running (n + 1) := by
  have counted : (sweepTaken s).motions.get p = _ := countSweep_motion
  rw [swept_motion] at counted
  have motion : ((sweepTaken s).motions.get p).motion = .stopping := by rw [counted]; exact stops
  have stop : ((sweepTaken s).motions.get p).stop = .running (n + 1) := by
    rw [counted]
    dsimp only
    rw [if_pos stops, timer]
    rfl
  have unrun : runupIsDue s.env p (sweepTaken s) = false := by
    unfold runupIsDue
    dsimp only
    rw [motion]
    rfl
  have unstopped : stopIsDue s.env p (sweepTaken s) = false := by
    unfold stopIsDue
    dsimp only
    rw [stop]
    exact (congrArg _ (decide_eq_false (Nat.not_le.2 short))).trans (Bool.and_false _)
  obtain ⟨motion', _, stop'⟩ := drain_timers unrun unstopped
  exact ⟨motion'.trans motion, stop'.trans stop⟩

theorem dwells_iff {p : Fin 8} : (definedPos s.env.setup p && dwelling s.run p) = true ↔ (s.setup.positions.get p).isSome = true
    ∧ ((s.run.lamps.get p).lamp = .settling ∨ (s.run.lamps.get p).lamp = .lit) ∧ (s.run.lamps.get p).dowser = .opened
    ∧ (s.run.motions.get p).motion = .stopped := by
  unfold definedPos dwelling motionOf
  simp only [Bool.and_eq_true, Bool.or_eq_true, beq_iff_eq, and_assoc]
  rfl

end

end Sys2Proof.Machine

namespace Sys2Proof.Proofs

open Sys2Proof.Machine

/-- Settles O48: the counts are made on the records as they stand, and only what they make due acts further. -/
theorem sweepEndCounts : Obligations.SweepEndCounts := by
  intro st m s ha hr hq
  obtain ⟨t, ends, port, setup, run⟩ : ∃ t, exec (.sweepEnd st m) s = .next t ∧ t.port = { s.port with
        reportedPositions := Vector.replicate 8 false, reportedChains := Vector.replicate 4 false
        loopRet := some (Cell.make .tail st m), contact := t.port.contact }
      ∧ t.setup = s.setup ∧ t.run = drain s.env (sweepTaken s) :=
    ⟨_, exec_sweepEnd ha st m, rfl, rfl, by rw [judged_run]⟩
  have acts : Acts s.env true true s.run (drain s.env (sweepTaken s)) := drain_acts rfl (sweepEnd_acts _ .refl)
  have ladder : LadderKept s t := by
    have kept := (undisturbed_of_acts acts).ladderKept
    unfold LadderKept
    rw [run]
    exact kept
  refine ⟨t, ends, port, setup, ladder, fun p => ?_, fun nothing => ?_⟩
  · have counted : (sweepTaken s).motions.get p = _ := countSweep_motion
    rw [swept_motion] at counted
    obtain ⟨last, value, referenced, miss, resync, signals, silent⟩ := drain_aged (e := s.env) (r := sweepTaken s) p
    rw [← run, counted] at last value referenced miss resync signals silent
    refine ⟨miss.trans ?_, value, referenced, last, signals, resync, silent, fun n runs timer short => ?_,
      fun n stops timer short => ?_⟩
    · refine ite_of_iff ?_
      rw [Bool.and_eq_true, Bool.not_eq_true']
      rfl
    · obtain ⟨motion, runup⟩ := sweepTaken_runup runs timer short
      rw [← run] at motion runup
      exact ⟨motion, runup⟩
    · obtain ⟨motion, stop⟩ := sweepTaken_stop stops timer short
      rw [← run] at motion stop
      exact ⟨motion, stop⟩
  · have quiet : (sweepTaken s).handoffs = [] := by
      rw [sweepTaken_eq, dueAll_nothing nothing, Run.handAll_nil]
      unfold sweepCounted
      rw [countSweep_frame]
      exact hq
    have left : t.run = sweepCounted s := by
      rw [run, drain_quiet quiet, sweepTaken_eq, dueAll_nothing nothing, Run.handAll_nil]
    have frame : sweepCounted s = _ := countSweep_frame
    obtain ⟨_, _, _, chains⟩ := nothing
    rw [left]
    refine ⟨?_, fun p => ⟨?_, ?_⟩, fun c => ?_⟩
    · cases gap : s.run.gate with
      | gap n =>
        rw [countGap_gap gap] at frame
        exact frame
      | free =>
        rw [countGap_other (by rw [gap]; exact nofun), gap] at frame
        exact frame
      | striking q =>
        rw [countGap_other (by rw [gap]; exact nofun), gap] at frame
        exact frame
    · have motion : (sweepCounted s).motions.get p = _ := countSweep_motion
      rw [motion, swept_motion]
      congr 1
      cases (s.run.motions.get p).motion <;> cases (s.run.motions.get p).stop <;> rfl
    · have lamp : (sweepCounted s).lamps.get p = _ := countSweep_lamp
      rw [lamp, swept_lamp]
      congr 1
      refine ite_of_iff ?_
      exact dwells_iff
    · obtain ⟨_, hold, _⟩ := chains c
      have chain : (sweepCounted s).chains.get c = _ := countSweep_chain c
      rw [chain, swept_chain]
      congr 1
      cases state : (s.run.chains.get c).state with
      | holding =>
        rw [if_pos rfl]
        obtain ⟨runs, rests⟩ := holdTimer_counts (t := (s.run.chains.get c).holdTimer) fun n => hold n state
        cases timer : (s.run.chains.get c).holdTimer with
        | running n => exact (congrArg (HoldTimer.count _) timer.symm).trans (runs n timer)
        | idle | expired => rfl
      | single | double | switching | dark | fallback | unknown => exact if_neg nofun

end Sys2Proof.Proofs
end

section
/-! PROOFS. Hand-offs to one reel taken, and the settle and dwell expiries (O55). -/

namespace Sys2Proof.Machine

/-! ### Hand-offs to the reels, one after the other (R44) -/

section
variable {e : Env} {r : Run}

theorem waitingBlocks_cues {hs : List Handoff} (cues : ∀ h ∈ hs, h.IsCue) (some_waits : hs ≠ []) : waitingBlocks hs = [.cue] := by
  have block : ∀ h ∈ hs, h.block = .cue := fun h hh => by
    obtain ⟨_, _, rfl⟩ := cues h hh
    rfl
  have stays : ∀ l : List Handoff, (∀ h ∈ l, h.block = .cue) →
      l.foldl (fun bs h => if bs.contains h.block then bs else bs ++ [h.block]) [Block.cue] = [Block.cue] := by
    intro l hl
    refine foldl_fixed fun h hh => ?_
    rw [hl h hh]
    rfl
  cases hs with
  | nil => exact absurd rfl some_waits
  | cons x xs =>
    unfold waitingBlocks
    rw [List.foldl_cons, block x (List.mem_cons_self ..)]
    exact stays xs fun h hh => block h (List.mem_cons_of_mem _ hh)

theorem drainFor_quiet (silent : r.handoffs = []) (n : Nat) : drainFor e n r = r := by
  have none_waits : pickHandoff r = none := by
    unfold pickHandoff
    rw [silent]
    rfl
  cases n with
  | zero => rfl
  | succ n =>
    unfold drainFor
    rw [none_waits]

/-- With hand-offs to reels alone the oldest is taken, and nothing is open. -/
theorem pickHandoff_cues {x : Handoff} {xs : List Handoff} (cues : ∀ h ∈ x :: xs, h.IsCue) (waits : r.handoffs = x :: xs) :
    pickHandoff r = some (x, { r with handoffs := xs }) := by
  obtain ⟨q, ev, rfl⟩ := cues x (List.mem_cons_self ..)
  unfold pickHandoff
  rw [waits, waitingBlocks_cues cues nofun]
  rfl

/-- Hand-offs to reels that have nothing to take bring nothing. -/
theorem drain_nothing {hs : List Handoff} (silent : r.handoffs = []) (short : hs.length ≤ 4096)
    (idle : ∀ h ∈ hs, ∃ q ev, h = .cueEvent q ev ∧ Nothing e.setup r q) : drain e (r.handAll hs) = r := by
  have drained : ∀ n (hs : List Handoff), hs.length ≤ n → (∀ h ∈ hs, ∃ q ev, h = .cueEvent q ev ∧ Nothing e.setup r q) →
      drainFor e n (r.handAll hs) = r := by
    intro n
    induction n with
    | zero =>
      intro hs short _
      rw [List.length_eq_zero_iff.1 (Nat.le_zero.1 short), Run.handAll_nil]
      rfl
    | succ n ih =>
      intro hs short idle
      cases hs with
      | nil =>
        rw [Run.handAll_nil]
        exact drainFor_quiet silent _
      | cons x xs =>
        have cues : ∀ l : List Handoff, l ⊆ x :: xs → ∀ h ∈ l, h.IsCue := fun l sub h hh => by
          obtain ⟨q, ev, same, _⟩ := idle h (sub hh)
          exact ⟨q, ev, same⟩
        have waits : (r.handAll (x :: xs)).handoffs = x :: xs := by
          rw [Run.handAll_handoffs, silent, List.nil_append]
        have left : ({ r.handAll (x :: xs) with handoffs := xs } : Run) = r.handAll xs := by
          unfold Run.handAll
          rw [silent]
          rfl
        have after : OnlyCues (r.handAll xs) := by
          unfold OnlyCues
          rw [Run.handAll_handoffs, silent, List.nil_append]
          exact cues xs (List.subset_cons_self ..)
        have before : OnlyCues r := by
          unfold OnlyCues
          rw [silent]
          exact nofun
        obtain ⟨q, ev, rfl, nothing⟩ := idle x (List.mem_cons_self ..)
        unfold drainFor
        rw [pickHandoff_cues (cues _ (List.Subset.refl _)) waits, left]
        have same : takeHandoff e (.cueEvent q ev) (r.handAll xs) = r.handAll xs :=
          evaluate_nothing (nothing.congr_cues rfl rfl before after)
        dsimp only
        rw [same]
        exact ih xs (Nat.le_of_succ_le_succ short) fun h hh => idle h (List.mem_cons_of_mem _ hh)
  exact drained _ hs short idle

/-- One hand-off to a reel, that brings no other. -/
theorem drain_one {q : Fin 8} {ev : CueEvent} (silent : r.handoffs = []) (quiet : (evaluate e ev q r).handoffs = []) :
    drain e (r.handAll [.cueEvent q ev]) = evaluate e ev q r := by
  have picked := pickHandoff_cues (r := r.handAll [.cueEvent q ev]) (x := .cueEvent q ev) (xs := [])
    (fun h hh => ⟨q, ev, List.mem_singleton.1 hh⟩) (by rw [Run.handAll_handoffs, silent, List.nil_append])
  have left : ({ r.handAll [.cueEvent q ev] with handoffs := [] } : Run) = r := by
    unfold Run.handAll
    dsimp only
    rw [← silent]
  rw [left] at picked
  show drainFor e (4095 + 1) _ = _
  unfold drainFor
  rw [picked]
  exact drainFor_quiet quiet _

end

end Sys2Proof.Machine
end

section
/-! PROOFS. The settle and dwell expiries (O55). -/

namespace Sys2Proof.Machine

/-! ### The lamp LIT and its conditions published (R52, R60, R61) -/

section
variable {e : Env} {p : Fin 8} {r : Run}

/-- R61: the conditions recorded, and at most two hand-offs to the partner's reel. -/
theorem publish_hands (a b : Bool) : ∃ hs : List Handoff, publish e p a b r =
      (r.modLamp p (fun l => { l with primed := a, ready := b })).handAll hs
    ∧ hs.length ≤ 2 ∧ ∀ h ∈ hs, ∃ q, partnerOf e.setup p = some q ∧ h = .cueEvent q .change := by
  refine ⟨_, rfl, ?_, ?_⟩
  · have one : (conditionEvent e p).length ≤ 1 := by
      unfold conditionEvent
      split
      · exact Nat.le_refl 1
      · exact Nat.zero_le 1
    rw [List.length_append]
    refine Nat.add_le_add (b := 1) (d := 1) ?_ ?_
    · split
      · exact one
      · exact Nat.zero_le 1
    · split
      · exact one
      · exact Nat.zero_le 1
  · intro h hh
    have event : h ∈ conditionEvent e p := by
      rcases List.mem_append.1 hh with hh | hh <;> split at hh
      · exact hh
      · exact absurd hh List.not_mem_nil
      · exact hh
      · exact absurd hh List.not_mem_nil
    unfold conditionEvent at event
    split at event
    · rename_i q partner
      exact ⟨q, partner, List.mem_singleton.1 event⟩
    · exact absurd event List.not_mem_nil

/-- One condition comes true where neither was. -/
theorem publish_one {a b : Bool} {q : Fin 8} (partner : partnerOf e.setup p = some q) (unprimed : (r.lamps.get p).primed = false)
    (unready : (r.lamps.get p).ready = false) (one : a = true ∧ b = false ∨ a = false ∧ b = true) :
    publish e p a b r = (r.modLamp p (fun l => { l with primed := a, ready := b })).handAll [.cueEvent q .change] := by
  have event : conditionEvent e p = [.cueEvent q .change] := by
    unfold conditionEvent
    rw [partner]
  unfold publish primed ready
  rw [unprimed, unready, event]
  rcases one with ⟨rfl, rfl⟩ | ⟨rfl, rfl⟩ <;> rfl

end

section
variable {p : Fin 8} {n : Nat} {s : State}

/-- PRIMED and READY of the lamp once LIT. -/
def primesLit (s : State) (p : Fin 8) : Bool :=
  (s.setup.positions.get p).isSome && (s.run.motions.get p).signals.getLsbD 0 && (s.run.motions.get p).motion == .stopped
    && (s.run.motions.get p).referenced && !(s.run.motions.get p).silent

def readiesLit (s : State) (p : Fin 8) : Bool :=
  (s.run.motions.get p).motion == .locked && (s.run.lamps.get p).dowser == .opened && !(s.run.motions.get p).silent

/-- The lamp records with the lamp LIT and its conditions worked. -/
def lampsLit (s : State) (p : Fin 8) : Vector LampRec 8 := s.run.lamps.set p { s.run.lamps.get p with
  lamp := .lit, settle := none, primed := primesLit s p, ready := readiesLit s p }

theorem settleIsDue_reached (settling : (s.run.lamps.get p).lamp = .settling) (timer : (s.run.lamps.get p).settle = some n)
    (limit : s.setup.params.lampSettle ≤ n + 1) : settleIsDue s.env p (s.run.modLamp p LampRec.countSettle) = true := by
  unfold settleIsDue
  rw [Run.modLamp_get, if_pos rfl]
  unfold LampRec.countSettle
  rw [if_pos settling]
  dsimp only
  rw [settling, timer]
  exact decide_eq_true limit

theorem expireSettle_eq (settling : (s.run.lamps.get p).lamp = .settling) (timer : (s.run.lamps.get p).settle = some n)
    (limit : s.setup.params.lampSettle ≤ n + 1) : expireSettle s.env p (s.run.modLamp p LampRec.countSettle) =
      publish s.env p (primesLit s p) (readiesLit s p) (s.run.modLamp p (fun l => { l with lamp := .lit, settle := none })) := by
  have lit : (s.run.modLamp p LampRec.countSettle).modLamp p (fun l => { l with lamp := .lit, settle := none }) =
      s.run.modLamp p (fun l => { l with lamp := .lit, settle := none }) := by
    rw [Run.modLamp_modLamp]
    refine Run.modLamp_congr ?_
    unfold LampRec.countSettle
    rw [if_pos settling]
  have record : (s.run.modLamp p (fun l => { l with lamp := .lit, settle := none })).lamps.get p =
      { s.run.lamps.get p with lamp := .lit, settle := none } := (Run.modLamp_get ..).trans (if_pos rfl)
  have primes : primedNow s.env.setup (s.run.modLamp p (fun l => { l with lamp := .lit, settle := none })) p = primesLit s p := by
    unfold primedNow primesLit failed motionOf definedPos
    rw [record]
    show ((s.setup.positions.get p).isSome && (s.run.motions.get p).signals.getLsbD 0 && true
      && (s.run.motions.get p).motion == .stopped && (s.run.motions.get p).referenced && !((s.run.motions.get p).motion == .broken || (s.run.motions.get p).silent)) = _
    rw [Bool.and_true]
    cases stopped : (s.run.motions.get p).motion == .stopped with
    | false => simp only [Bool.and_false, Bool.false_and]
    | true =>
      have unbroken : ((s.run.motions.get p).motion == .broken) = false := by
        rw [beq_iff_eq.1 stopped]
        rfl
      rw [unbroken, Bool.false_or]
  have readies : readyNow (s.run.modLamp p (fun l => { l with lamp := .lit, settle := none })) p = readiesLit s p := by
    unfold readyNow readiesLit
    rw [record]
    show ((s.run.motions.get p).motion == .locked && true && (s.run.lamps.get p).dowser == .opened
      && !(s.run.motions.get p).silent) = _
    rw [Bool.and_true]
  unfold expireSettle
  rw [if_pos (settleIsDue_reached settling timer limit), lit]
  unfold workConditions
  rw [primes, readies]

theorem lampsLit_eq (s : State) (p : Fin 8) :
    (s.run.modLamp p (fun l => { l with lamp := .lit, settle := none })).modLamp p (fun l => { l with
      primed := primesLit s p, ready := readiesLit s p }) = { s.run with lamps := lampsLit s p } := by
  rw [Run.modLamp_modLamp]
  rfl

theorem lampsLit_get (s : State) (p : Fin 8) : (lampsLit s p).get p = { s.run.lamps.get p with
    lamp := .lit, settle := none, primed := primesLit s p, ready := readiesLit s p } := (get_set_fin ..).trans (if_pos rfl)

theorem settleExpiry_falls (ha : s.acting) (settling : (s.run.lamps.get p).lamp = .settling)
    (timer : (s.run.lamps.get p).settle = some n) (limit : s.setup.params.lampSettle ≤ n + 1) {r : Run}
    (drained : drain s.env (publish s.env p (primesLit s p) (readiesLit s p)
      (s.run.modLamp p (fun l => { l with lamp := .lit, settle := none }))) = r) :
    exec (.settleExpiry p) s = .next (State.judged { s with run := r }) := by
  have fell : exec (.settleExpiry p) s = .next (s.event (fun _ r => r.modLamp p LampRec.countSettle)
      (fun e r => settleIsDue e p r) (fun e r => expireSettle e p r)) := rfl
  rw [fell, event_due ha (settleIsDue_reached settling timer limit), expireSettle_eq settling timer limit, drained]

/-- R61: conditions that bring the partner's reel nothing. -/
theorem settle_drains_nothing (hq : s.quiet) (idle : (∀ q, partnerOf s.setup p = some q → NothingToTake s q)
      ∨ ((s.run.lamps.get p).primed = primesLit s p ∧ (s.run.lamps.get p).ready = readiesLit s p)) :
    drain s.env (publish s.env p (primesLit s p) (readiesLit s p)
      (s.run.modLamp p (fun l => { l with lamp := .lit, settle := none }))) = { s.run with lamps := lampsLit s p } := by
  rcases idle with idle | ⟨primes, readies⟩
  · obtain ⟨hs, published, short, events⟩ := publish_hands (e := s.env) (p := p)
      (r := s.run.modLamp p (fun l => { l with lamp := .lit, settle := none })) (primesLit s p) (readiesLit s p)
    rw [published, lampsLit_eq]
    refine drain_nothing hq (Nat.le_trans short (by decide)) fun h hh => ?_
    obtain ⟨q, partner, same⟩ := events h hh
    exact ⟨q, .change, same, Nothing.congr (a := s.run) (idle q partner) rfl rfl rfl⟩
  · have same : primesLit s p = ((s.run.modLamp p (fun l => { l with lamp := .lit, settle := none })).lamps.get p).primed
        ∧ readiesLit s p = ((s.run.modLamp p (fun l => { l with lamp := .lit, settle := none })).lamps.get p).ready := by
      rw [Run.modLamp_get, if_pos rfl]
      exact ⟨primes.symm, readies.symm⟩
    rw [publish_quietly (.inr same), lampsLit_eq]
    exact drain_quiet hq

end

/-! ### The held record whose condition comes (R86, R87, R91) -/

section
variable {e : Env} {q p : Fin 8} {c : Fin 4} {z : Port} {b : Cue} {r T : Run} {how : CueOutcome}

/-- R97: a held record, the last of its list, completes. -/
theorem heldCompletes (scans : scanned e.setup r q = true) (record : cursorRecord e.setup r q = some (some b))
    (last : (r.scans.get q).cursor + 1 = listLength e.setup q) (room : r.notices.length < 16)
    (taken : takeCue e .change q b r = (T, some how)) (kept : T.scans = (notePartnerRan q p r).scans)
    (notices : T.notices = r.notices) (motions : T.motions = r.motions) : evaluate e .change q r = { T with
      scans := r.scans.set q (r.scans.get q).passed
      notices := r.notices ++
        [{ sweep := e.sweep
           body := .cue q b.tag b.action how ((r.scans.get q).met == some true) (r.motions.get q).value }] } := by
  have noted : T.scans.get q =
      { r.scans.get q with partnerRan := (r.scans.get q).partnerRan || (motionOf r p).running } := by
    rw [kept]
    exact modScan_get_self _
  rw [evaluate_last scans rfl record last room taken (by rw [noted]) notices, noted, motions, kept]
  unfold notePartnerRan Run.modScan
  dsimp only
  rw [Vector.set_set]

/-- R91: a record under HOLD whose condition has come. -/
theorem takeCue_came (hc : chainOf e.setup q = some (c, z)) (partner : partnerOf e.setup q = some p)
    (held : (r.scans.get q).hold = .hold) (onAir : isOnAir e.setup r q = true) (armed : (e.setup.modes.get c).armed = true)
    (sound : failed r p = false) (runs : b.action.isChange = true → (motionOf r p).running = true)
    (holds : conditionHolds b.action p r = true) :
    takeCue e .change q b r = conditionCame e c q p b.action (notePartnerRan q p r) := by
  have on : isOnAir e.setup (notePartnerRan q p r) q = true := onAir
  have unfailed : failed (notePartnerRan q p r) p = false := sound
  have goes : partnerStopped b.action q p (notePartnerRan q p r) = false := by
    unfold partnerStopped
    cases change : b.action.isChange with
    | false => rfl
    | true =>
      have runs : (motionOf (notePartnerRan q p r) p).running = true := runs change
      rw [runs]
      exact Bool.and_false _
  have condition : conditionHolds b.action p (notePartnerRan q p r) = true := holds
  unfold takeCue
  dsimp only
  rw [held]
  unfold takeHeld
  rw [hc, partner]
  unfold takeHeldIn
  dsimp only
  rw [on, armed, unfailed, goes, condition]
  rfl

end

/-! ### A PREROLL DONE and a CHANGE LATE (R86, R87, R109, R111) -/

section
variable {e : Env} {q p : Fin 8} {c : Fin 4} {z : Port} {b : Cue} {r : Run} {m : Fin 8 × HoldKind}

/-- R86, R109: the orders of a PREROLL, and the hold ended with the state derived. -/
theorem conditionCame_preroll {v : Bool} {x : PosDef} (single : PortsSingle e.setup) (action : b.action = .preroll v)
    (defined : e.setup.positions.get p = some x) (holding : (r.chains.get c).state = .holding)
    (holds : (r.chains.get c).hold = some m)
    (still : ∀ z a, portPosition e.setup c z = some a → pastRunout e.setup r c a = false) :
    ∃ raised stopped, conditionCame e c q p b.action r = ({ r with
      orders := enqueueOrder x.station .start (enqueueOrder x.station .dowserOpen r.orders)
      chains := r.chains.set c ((r.chains.get c).unheld (e.setup.modes.get c).holdLimit (derivedState e.setup r c))
      runoutRaised := raised, tailStopped := stopped }, some .done) := by
  have ordered : prerollOrders e p r =
      { r with orders := enqueueOrder x.station .start (enqueueOrder x.station .dowserOpen r.orders) } := by
    unfold prerollOrders
    rw [queueFor_defined defined, queueFor_defined defined]
  obtain ⟨raised, stopped, ended⟩ := holdEnd_derives (e := e) (r := prerollOrders e p r) (p := q) (how := .done) (m := m)
    trivial single (fun z a port => by rw [ordered]; exact still z a port) (by rw [ordered]; exact holding)
    (by rw [ordered]; exact holds)
  refine ⟨raised, stopped, ?_⟩
  unfold conditionCame
  rw [action]
  show (holdEnd e c q .done (prerollOrders e p r), _) = _
  rw [ended, ordered]
  rfl

/-- R119 to R121: a switch to the other port with kind CHANGE leaves the guard and the tail stop nothing to do. -/
theorem changeTarget_inert (hc : chainOf e.setup q = some (c, z.other)) (defined : (e.setup.positions.get q).isSome = true)
    (switching : (r.chains.get c).state = .switching) (observed : (r.chains.get c).observed = some z.other.input)
    (target : (r.chains.get c).target = some (z.input, .change)) (a : Fin 8) (w : Port)
    (port : portPosition e.setup c w = some a) : RunoutInert e c w a r := by
  intro _
  refine ⟨fun _ => by rw [switching]; exact ⟨nofun, nofun, nofun⟩, fun off => ?_⟩
  rcases Port.eq_or_other z w with rfl | rfl
  · refine .inr (.inr ?_)
    unfold isChangeTarget chainState
    rw [switching, target]
    exact beq_self_eq_true _
  · obtain rfl := Option.some.inj (port.symm.trans (chainOf_port hc))
    exact nomatch (isOnAir_of_observed hc observed defined).symm.trans off

/-- R87, R109, R111: the changeover request of a CHANGE goes before the runout of the return. -/
theorem conditionCame_change {v : Bool} {y : ChainDef} (single : PortsSingle e.setup) (action : b.action = .change v)
    (hc : chainOf e.setup q = some (c, z.other)) (hp : chainOf e.setup p = some (c, z)) (hd : e.setup.chains.get c = some y)
    (defined : (e.setup.positions.get q).isSome = true)
    (holding : (r.chains.get c).state = .holding) (holds : (r.chains.get c).hold = some m)
    (observed : (r.chains.get c).observed = some z.other.input) (readies : ready r p = true)
    (derived : derivedState e.setup r c = .double) :
    ∃ T, conditionCame e c q p b.action r = (T, some .late) ∧ FlagsWorked e c { r with
      orders := enqueueOrder y.station (.select z.input) r.orders
      chains := r.chains.set c (((r.chains.get c).unheld (e.setup.modes.get c).holdLimit .double).switched z.input .change
        ((r.chains.get c).unheld (e.setup.modes.get c).holdLimit .double).holdSweeps) } T := by
  obtain ⟨back, hback⟩ : ∃ back, back = derive e c (clearHold e c r) := ⟨_, rfl⟩
  have ended : holdEnd e c q (.late p) r = evaluateReturn e true c back (changeover e c q p .requireSet true back) := by
    rw [hback]
    unfold holdEnd chainState
    rw [holding, holds]
    rfl
  have frame := derive_clearHold (e := e) (c := c) (r := r)
  rw [← hback, derived] at frame
  have record : back.chains.get c = (r.chains.get c).unheld (e.setup.modes.get c).holdLimit .double := by
    rw [frame]
    exact (get_set_fin ..).trans (if_pos rfl)
  have goes : changeover e c q p .requireSet true back = switchTo e c z.input .change true back := by
    refine changeover_asked hp (.inr (by rw [record])) ?_ (.inl ?_)
    · rw [record]
      exact fun same => input_ne_other z (Option.some.inj (observed.symm.trans same)).symm
    · rw [frame]
      exact readies
  have switched := switchTo_kept (r := back) hd z.input .change
  have film : (chainState back c).onFilm = true := by
    unfold chainState
    rw [record]
    rfl
  have left : switchTo e c z.input .change true back = { r with
      orders := enqueueOrder y.station (.select z.input) r.orders
      chains := r.chains.set c (((r.chains.get c).unheld (e.setup.modes.get c).holdLimit .double).switched z.input .change
        ((r.chains.get c).unheld (e.setup.modes.get c).holdLimit .double).holdSweeps) } := by
    rw [switched, record, frame]
    dsimp only
    rw [Vector.set_set]
  rw [← left]
  refine ⟨evaluatePorts e true c (switchTo e c z.input .change true back), ?_, evaluatePorts_flags single fun a w port =>
    changeTarget_inert hc defined ?_ ?_ ?_ a w port⟩
  · unfold conditionCame
    rw [action]
    show (holdEnd e c q (.late p) r, _) = _
    rw [ended, goes]
    unfold evaluateReturn
    rw [if_pos film]
  all_goals rw [left, show (r.chains.set _ _).get c = _ from (get_set_fin ..).trans (if_pos rfl)]
  exact observed

end

/-! ### The dwell expiry (R59) -/

section
variable {p : Fin 8} {s : State}

theorem countDwell_dwells (defined : (s.setup.positions.get p).isSome = true)
    (burns : (s.run.lamps.get p).lamp = .lit ∨ (s.run.lamps.get p).lamp = .settling)
    (opened : (s.run.lamps.get p).dowser = .opened) (stopped : (s.run.motions.get p).motion = .stopped) :
    countDwell s.env p s.run = s.run.modLamp p (fun l => { l with dwell := l.dwell + 1 }) := by
  have dwells : (definedPos s.env.setup p && dwelling s.run p) = true :=
    dwells_iff.2 ⟨defined, burns.symm, opened, stopped⟩
  unfold countDwell
  rw [dwells]
  rfl

theorem dwellExpiry_falls {d : PosDef} (ha : s.acting) (hq : s.quiet) (hd : s.setup.positions.get p = some d)
    (burns : (s.run.lamps.get p).lamp = .lit ∨ (s.run.lamps.get p).lamp = .settling)
    (opened : (s.run.lamps.get p).dowser = .opened) (stopped : (s.run.motions.get p).motion = .stopped)
    (limit : s.setup.params.dwellLimit ≤ (s.run.lamps.get p).dwell + 1) :
    ∃ t, exec (.dwellExpiry p) s = .next t ∧ OnlyBlocksActed s t
      ∧ t.run = { s.run with
          orders := enqueueOrder d.station .dowserClose s.run.orders
          lamps := s.run.lamps.set p { s.run.lamps.get p with dwell := 0 }
          slots := t.run.slots }
      ∧ RaisedIn s t (slotDwell p) (some (s.run.motions.get p).value)
      ∧ ∀ k, k ≠ slotDwell p → t.run.slots.get k = s.run.slots.get k := by
  have counted := countDwell_dwells (p := p) (s := s) (by rw [hd]; rfl) burns opened stopped
  have due : dwellIsDue s.env p (countDwell s.env p s.run) = true := by
    rw [counted]
    unfold dwellIsDue
    rw [Run.modLamp_get, if_pos rfl]
    exact decide_eq_true limit
  have queued : queueFor s.env p .dowserClose (s.run.modLamp p (fun l => { l with dwell := l.dwell + 1 })) =
      { s.run.modLamp p (fun l => { l with dwell := l.dwell + 1 }) with
        orders := enqueueOrder d.station .dowserClose s.run.orders } := queueFor_defined hd _
  have slots : (raisePosition s.env (slotDwell p) p (queueFor s.env p .dowserClose
      (s.run.modLamp p (fun l => { l with dwell := l.dwell + 1 })))).slots =
      (raise s.env (slotDwell p) (some (s.run.motions.get p).value) none s.run).slots := by
    unfold raisePosition
    rw [queued]
    exact raise_slots_congr rfl
  have acted : expireDwell s.env p (countDwell s.env p s.run) = { s.run with
      orders := enqueueOrder d.station .dowserClose s.run.orders
      lamps := s.run.lamps.set p { s.run.lamps.get p with dwell := 0 }
      slots := (raise s.env (slotDwell p) (some (s.run.motions.get p).value) none s.run).slots } := by
    unfold expireDwell
    rw [if_pos due, counted, raisePosition_frame, slots, queued]
    unfold Run.modLamp
    dsimp only
    rw [Vector.set_set, get_set_fin, if_pos rfl]
  obtain ⟨t, fell, only, run, raised, others⟩ := event_raises (s := s) (k := slotDwell p) (x := none) (r0 := s.run)
    (v := some (s.run.motions.get p).value) (count := fun e r => countDwell e p r) (due := fun e r => dwellIsDue e p r)
    (f := fun e r => expireDwell e p r) ha due acted hq rfl rfl
  exact ⟨t, congrArg Host.Outcome.next fell, only, by rw [run], raised, others⟩

end

end Sys2Proof.Machine

namespace Sys2Proof.Proofs

open Sys2Proof.Machine

/-- The settle expiry of a lamp whose partner holds a record for it. -/
theorem settle_completes {p q : Fin 8} {n : Nat} {c : Fin 4} {z : Port} {b : Cue} {s : State} {how : CueOutcome} {T : Run}
    (ha : s.acting) (settling : (s.run.lamps.get p).lamp = .settling) (timer : (s.run.lamps.get p).settle = some n)
    (limit : s.setup.params.lampSettle ≤ n + 1) (hq : s.quiet) (partner : partnerOf s.setup p = some q)
    (back : partnerOf s.setup q = some p) (hc : chainOf s.setup q = some (c, z))
    (armed : (s.setup.modes.get c).armed = true) (onAir : isOnAir s.setup s.run q = true)
    (scans : scanned s.setup s.run q = true) (held : (s.run.scans.get q).hold = .hold)
    (record : cursorRecord s.setup s.run q = some (some b))
    (last : (s.run.scans.get q).cursor + 1 = listLength s.setup q) (room : s.run.notices.length < 16)
    (unprimed : (s.run.lamps.get p).primed = false) (unready : (s.run.lamps.get p).ready = false)
    (one : primesLit s p = true ∧ readiesLit s p = false ∨ primesLit s p = false ∧ readiesLit s p = true)
    (sound : failed s.run p = false) (runs : b.action.isChange = true → (motionOf s.run p).running = true)
    (holds : conditionHolds b.action p { s.run with lamps := lampsLit s p } = true)
    (came : conditionCame s.env c q p b.action (notePartnerRan q p { s.run with lamps := lampsLit s p }) = (T, some how))
    (kept : T.scans = (notePartnerRan q p { s.run with lamps := lampsLit s p }).scans) (notices : T.notices = s.run.notices)
    (motions : T.motions = s.run.motions) (silent : T.handoffs = []) :
    ∃ t, exec (.settleExpiry p) s = .next t ∧ OnlyBlocksActed s t ∧ t.run = { T with
      scans := s.run.scans.set q (s.run.scans.get q).passed
      notices := s.run.notices ++
        [{ sweep := s.port.sweep
           body := .cue q b.tag b.action how ((s.run.scans.get q).met == some true) (s.run.motions.get q).value }] } := by
  have taken := (takeCue_came (e := s.env) (r := { s.run with lamps := lampsLit s p }) hc back held onAir armed sound runs
    holds).trans came
  have completed := heldCompletes (e := s.env) (r := { s.run with lamps := lampsLit s p }) scans record last room taken kept
    notices motions
  have published := publish_one (e := s.env) (p := p) (r := s.run.modLamp p (fun l => { l with lamp := .lit, settle := none }))
    partner (by rw [Run.modLamp_get, if_pos rfl]; exact unprimed) (by rw [Run.modLamp_get, if_pos rfl]; exact unready) one
  rw [lampsLit_eq] at published
  have drained := drain_one (e := s.env) (q := q) (ev := .change) (r := { s.run with lamps := lampsLit s p }) hq
    (by rw [completed]; exact silent)
  rw [← published, completed] at drained
  exact ⟨_, settleExpiry_falls ha settling timer limit drained, onlyBlocksActed_judged s _, by rw [judged_run]; rfl⟩

theorem partner_back {su : Setup} {p q : Fin 8} {c : Fin 4} {z : Port} (single : PortsSingle su) (hc : chainOf su p = some (c, z))
    (partner : partnerOf su p = some q) : chainOf su q = some (c, z.other) ∧ partnerOf su q = some p := by
  have there := chainOf_of_port single (partner_port hc partner)
  refine ⟨there, ?_⟩
  unfold partnerOf
  rw [there]
  dsimp only
  rw [if_pos (pairValid_of_partner hc partner), Port.other_other]
  exact chainOf_port hc

theorem primesLit_sound {s : State} {p : Fin 8} (primes : primesLit s p = true) : (s.run.motions.get p).motion = .stopped
    ∧ failed s.run p = false ∧ readiesLit s p = false := by
  unfold primesLit at primes
  simp only [Bool.and_eq_true, beq_iff_eq, Bool.not_eq_true'] at primes
  obtain ⟨⟨⟨_, stopped⟩, _⟩, sounds⟩ := primes
  refine ⟨stopped, failed_eq_false ⟨by rw [stopped]; exact nofun, sounds⟩, ?_⟩
  unfold readiesLit
  rw [stopped]
  rfl

theorem readiesLit_sound {s : State} {p : Fin 8} (readies : readiesLit s p = true) : (s.run.motions.get p).motion = .locked
    ∧ failed s.run p = false ∧ primesLit s p = false := by
  unfold readiesLit at readies
  simp only [Bool.and_eq_true, beq_iff_eq, Bool.not_eq_true'] at readies
  obtain ⟨⟨locked, _⟩, sounds⟩ := readies
  refine ⟨locked, failed_eq_false ⟨by rw [locked]; exact nofun, sounds⟩, ?_⟩
  unfold primesLit
  rw [locked]
  simp only [beq_eq_false_iff_ne.2 (show Motion.locked ≠ .stopped from nofun), Bool.and_false, Bool.false_and]

section
variable {p q : Fin 8} {n : Nat} {c : Fin 4} {z : Port} {b : Cue} {k : HoldKind} {v : Bool} {s : State} (ha : s.acting)
  (hq : s.quiet) (settling : (s.run.lamps.get p).lamp = .settling) (timer : (s.run.lamps.get p).settle = some n)
  (limit : s.setup.params.lampSettle ≤ n + 1) (single : PortsSingle s.setup) (partner : partnerOf s.setup p = some q)
  (hc : chainOf s.setup p = some (c, z)) (holding : (s.run.chains.get c).state = .holding)
  (holds : (s.run.chains.get c).hold = some (q, k)) (observed : (s.run.chains.get c).observed = some z.other.input)
  (armed : (s.setup.modes.get c).armed = true) (scans : scanned s.setup s.run q = true)
  (held : (s.run.scans.get q).hold = .hold) (record : cursorRecord s.setup s.run q = some (some b))
  (last : (s.run.scans.get q).cursor + 1 = listLength s.setup q) (room : s.run.notices.length < 16)
  (unprimed : (s.run.lamps.get p).primed = false) (unready : (s.run.lamps.get p).ready = false)
include ha hq settling timer limit single partner hc holding holds observed armed scans held record last room unprimed unready

/-- R86: PRIMED come true of the partner of a held PREROLL. -/
theorem settle_preroll {x : PosDef} (hx : s.setup.positions.get p = some x) (action : b.action = .preroll v)
    (primes : primesLit s p = true)
    (still : ∀ w a, portPosition s.setup c w = some a → pastRunout s.setup s.run c a = false) :
    ∃ t raised stopped, exec (.settleExpiry p) s = .next t ∧ OnlyBlocksActed s t ∧ t.run = { s.run with
      lamps := lampsLit s p, scans := s.run.scans.set q (s.run.scans.get q).passed
      notices := s.run.notices ++
        [{ sweep := s.port.sweep
           body := .cue q b.tag b.action .done ((s.run.scans.get q).met == some true) (s.run.motions.get q).value }]
      orders := enqueueOrder x.station .start (enqueueOrder x.station .dowserOpen s.run.orders)
      chains := s.run.chains.set c ((s.run.chains.get c).unheld (s.setup.modes.get c).holdLimit .single)
      runoutRaised := raised, tailStopped := stopped } := by
  obtain ⟨there, back⟩ := partner_back single hc partner
  obtain ⟨stopped, sound, unreadies⟩ := primesLit_sound primes
  have derived : derivedState s.env.setup (notePartnerRan q p { s.run with lamps := lampsLit s p }) c = .single := by
    refine (derivedState_port (su := s.setup) observed).trans (if_neg ?_)
    rintro ⟨a, port, _, runs⟩
    rw [Port.other_other] at port
    obtain rfl := Option.some.inj (port.symm.trans (chainOf_port hc))
    exact runs.elim (fun h => nomatch stopped.symm.trans h) fun h => nomatch stopped.symm.trans h
  obtain ⟨raised, tails, came⟩ := conditionCame_preroll (e := s.env) (q := q)
    (r := notePartnerRan q p { s.run with lamps := lampsLit s p }) single action hx holding holds
    fun w a port => still w a port
  rw [derived] at came
  obtain ⟨t, fell, only, run⟩ := settle_completes ha settling timer limit hq partner back there armed
    (isOnAir_of_observed there observed (defined_of_scanned scans)) scans held record last room unprimed unready
    (.inl ⟨primes, unreadies⟩) sound (fun change => by rw [action] at change; exact nomatch change) (by
      unfold conditionHolds primed
      rw [action, lampsLit_get]
      exact primes) came rfl rfl rfl hq
  exact ⟨t, raised, tails, fell, only, run⟩

/-- R87: READY come true of the partner of a held CHANGE. -/
theorem settle_change {y : ChainDef} (hd : s.setup.chains.get c = some y) (action : b.action = .change v)
    (readies : readiesLit s p = true) :
    ∃ t, exec (.settleExpiry p) s = .next t ∧ OnlyBlocksActed s t ∧ FlagsWorked s.env c { s.run with
      lamps := lampsLit s p, scans := s.run.scans.set q (s.run.scans.get q).passed
      notices := s.run.notices ++
        [{ sweep := s.port.sweep
           body := .cue q b.tag b.action .late ((s.run.scans.get q).met == some true) (s.run.motions.get q).value }]
      orders := enqueueOrder y.station (.select z.input) s.run.orders
      chains := s.run.chains.set c (((s.run.chains.get c).unheld (s.setup.modes.get c).holdLimit .double).switched z.input .change
        ((s.run.chains.get c).unheld (s.setup.modes.get c).holdLimit .double).holdSweeps) } t.run := by
  obtain ⟨there, back⟩ := partner_back single hc partner
  obtain ⟨locked, sound, unprimes⟩ := readiesLit_sound readies
  have derived : derivedState s.env.setup (notePartnerRan q p { s.run with lamps := lampsLit s p }) c = .double := by
    refine (derivedState_port (su := s.setup) observed).trans (if_pos ⟨p, ?_, ?_, .inr locked⟩)
    · rw [Port.other_other]
      exact chainOf_port hc
    · exact defined_of_partner there back
  have readied : ((lampsLit s p).get p).ready = true := by
    rw [lampsLit_get]
    exact readies
  obtain ⟨T, came, flags⟩ := conditionCame_change (e := s.env) (q := q)
    (r := notePartnerRan q p { s.run with lamps := lampsLit s p }) single action there hc hd (defined_of_scanned scans) holding
    holds observed readied derived
  obtain ⟨frame, cleared, kept⟩ := flags
  obtain ⟨t, fell, only, run⟩ := settle_completes ha settling timer limit hq partner back there armed
    (isOnAir_of_observed there observed (defined_of_scanned scans)) scans held record last room unprimed unready
    (.inr ⟨unprimes, readies⟩) sound (fun _ => running_iff.2 (.inr locked)) (by
      unfold conditionHolds
      rw [action]
      exact readied) came (by rw [frame]) (by rw [frame]; rfl) (by rw [frame]; rfl) (by rw [frame]; exact hq)
  refine ⟨t, fell, only, ?_, fun a w port past => ?_, fun a past => ?_⟩
  · rw [run, frame]
    rfl
  · rw [run]
    exact cleared a w port past
  · rw [run]
    exact kept a past

end

/-- Settles O55: the conditions of the LIT lamp go to the partner's reel alone, which completes what it holds for them. -/
theorem lampCountersExpire : Obligations.LampCountersExpire := by
  intro p n d s ha hr hq l m
  refine ⟨fun settling timer limit => ?_, fun hd burns opened stopped limit =>
    dwellExpiry_falls ha hq hd burns opened stopped limit⟩
  intro primes readies lit
  refine ⟨fun idle => ?_, ?_, ?_⟩
  · have fell := settleExpiry_falls ha settling timer limit (settle_drains_nothing hq idle)
    have right := judged_same_slots (r := { s.run with lamps := lampsLit s p }) hr rfl
    exact fell.trans (congrArg Host.Outcome.next right)
  · intro q c z b k v x y single partner hc hx hd was holding holds observed armed scans held record last room unprimed unready
      ended completed
    refine ⟨fun action primed_now still => ?_, fun action ready_now => ?_⟩
    · obtain ⟨t, raised, stopped, fell, only, run⟩ := settle_preroll ha hq settling timer limit single partner hc holding holds
        observed armed scans held record last room unprimed unready hx action primed_now still
      exact ⟨t, fell, only, by rw [run]; rfl⟩
    · obtain ⟨t, fell, only, flags⟩ := settle_change ha hq settling timer limit single partner hc holding holds
        observed armed scans held record last room unprimed unready hd action ready_now
      exact ⟨t, fell, only, runoutWorked_of_flags flags rfl rfl rfl, flags.frame⟩
  · have acts : Acts s.env false true s.run (expireSettle s.env p (s.run.modLamp p LampRec.countSettle)) := by
      exact expireSettle_acts p (Acts.lamp _ _ .refl)
    obtain ⟨t, fell, only, run, motions⟩ := event_drains (count := fun _ r => r.modLamp p LampRec.countSettle)
      (due := fun e r => settleIsDue e p r) (f := fun e r => expireSettle e p r) ha
      (settleIsDue_reached settling timer limit) rfl (acts.noMotionDue (noMotionDue_of_quiet hq))
    exact ⟨t, congrArg Host.Outcome.next fell, only, ladderKept_of_event (i := .settleExpiry p) rfl (congrArg Host.Outcome.next fell),
      motions.trans acts.motions⟩

end Sys2Proof.Proofs
end

section
/-! PROOFS. The hold expiry (O58). -/

namespace Sys2Proof.Machine

section
variable {e : Env} {c : Fin 4} {p q : Fin 8} {k : HoldKind} {b : Cue} {r : Run}

/-! ### Hand-offs to reels, after the first -/

theorem drainFor_spread (n : Nat) (cues : OnlyCues r) : Spread e r (drainFor e n r) := by
  induction n generalizing r with
  | zero => exact .refl r
  | succ n ih =>
    unfold drainFor
    split
    · exact .refl r
    · rename_i x r1 pick
      obtain ⟨a, ev, rfl⟩ := cues x (pickHandoff_sub pick).1
      have picked : Spread e r r1 := pickHandoff_spread pick
      have taken : Spread e r1 (evaluate e ev a r1) := (evaluate_walked ev a r1).spread
      exact (picked.trans taken).trans (ih (taken.onlyCues (picked.onlyCues cues)))

/-- One hand-off to a reel: its evaluation, and then what that hands on. -/
theorem drain_first {ev : CueEvent} (silent : r.handoffs = []) :
    drain e (r.handAll [.cueEvent q ev]) = drainFor e 4095 (evaluate e ev q r) := by
  have picked := pickHandoff_cues (r := r.handAll [.cueEvent q ev]) (x := .cueEvent q ev) (xs := [])
    (fun h hh => ⟨q, ev, List.mem_singleton.1 hh⟩) (by rw [Run.handAll_handoffs, silent, List.nil_append])
  have left : ({ r.handAll [.cueEvent q ev] with handoffs := [] } : Run) = r := by
    unfold Run.handAll
    dsimp only
    rw [← silent]
  rw [left] at picked
  show drainFor e (4095 + 1) _ = _
  conv => lhs; unfold drainFor
  rw [picked]
  rfl

/-! ### The record held out (R91, R92, R110) -/

/-- What the end HELD OUT of p's HOLD leaves, before the record completes. -/
def heldOutRun (e : Env) (c : Fin 4) (p q : Fin 8) (k : HoldKind) (r : Run) : Run :=
  holdExpiryRule e c p k (clearHold e c (notePartnerRan p q r))

theorem takeCue_heldOut {z : Port} (hc : chainOf e.setup p = some (c, z)) (partner : partnerOf e.setup p = some q)
    (held : (r.scans.get p).hold = .hold) (holding : (r.chains.get c).state = .holding) (holds : (r.chains.get c).hold = some (p, k)) :
    takeCue e .holdExpiry p b r = (heldOutRun e c p q k r, some .heldOut) := by
  have ended : holdEnd e c p .heldOut (notePartnerRan p q r) = heldOutRun e c p q k r := by
    unfold holdEnd chainState
    rw [show (notePartnerRan p q r).chains.get c = r.chains.get c from rfl, holding, holds]
    rfl
  unfold takeCue
  dsimp only
  rw [held]
  unfold takeHeld
  rw [hc, partner]
  exact congrArg (·, some CueOutcome.heldOut) ended

theorem holdExpiryRule_raised_acts {full obs : Bool} :
    Acts e full obs (raiseChain e (slotChangeFailed c) r) (holdExpiryRule e c p k r) := by
  unfold holdExpiryRule
  dsimp only
  split
  · exact derive_acts _ .refl
  · split
    · exact switchTo_acts _ _ _ _ .refl
    · exact evaluateReturn_acts _ _ _ (derive_acts _ .refl)

theorem heldOutRun_side (holding : (r.chains.get c).state = .holding) :
    ChainSide e c (notePartnerRan p q r) (heldOutRun e c p q k r) :=
  have awake : ¬ ((notePartnerRan p q r).chains.get c).Resting := awake_of_holding holding
  holdExpiryRule_side awake p k (clearHold_side awake (.refl _))

/-- The chain holds nothing. -/
def Unholding (c : Fin 4) (r : Run) : Prop :=
  (r.chains.get c).state ≠ .holding ∧ (r.chains.get c).hold = none ∧ (r.chains.get c).holdTimer = .idle

theorem derivedState_unholding (su : Setup) : derivedState su r c ≠ .holding := by
  unfold derivedState
  repeat' split
  all_goals exact nofun

theorem Unholding.congr {r' : Run} (h : Unholding c r) (same : r'.chains.get c = r.chains.get c) : Unholding c r' := by
  unfold Unholding
  rw [same]
  exact h

theorem queueForChain_chains (d : Fin 4) (o : Order) : (queueForChain e d o r).chains = r.chains := by
  unfold queueForChain
  split <;> rfl

/-- A switch holds nothing that was not held. -/
theorem switchTo_unholding {d : Fin 4} {i : Input} {k : SwitchKind} {keep : Bool}
    (h : c = d → (r.chains.get c).hold = none ∧ (r.chains.get c).holdTimer = .idle) (g : c ≠ d → Unholding c r) :
    Unholding c (switchTo e d i k keep r) := by
  by_cases same : c = d
  · subst same
    obtain ⟨held, timer⟩ := h rfl
    unfold Unholding switchTo
    rw [Run.modChain_get, if_pos rfl, queueForChain_chains]
    exact ⟨nofun, held, timer⟩
  · refine (g same).congr ?_
    unfold switchTo
    rw [Run.modChain_get, if_neg (Ne.symm same), queueForChain_chains]

theorem guardRunout_unholding (keep : Bool) (d : Fin 4) (a : Fin 8) (h : Unholding c r) :
    Unholding c (guardRunout e keep d a r) := by
  have raised : Unholding c (raiseRunout e d a r) := h.congr (by rw [raiseRunout_eq])
  have guarded : Unholding c (if (e.setup.modes.get d).fallback then switchToFallback e d keep (raiseRunout e d a r)
      else raiseRunout e d a r) := by
    split
    · exact switchTo_unholding (fun _ => raised.2) fun _ => raised
    · exact raised
  unfold guardRunout
  split
  · exact guarded
  · exact guarded
  · exact raised
  all_goals exact h

theorem evaluateRunout_unholding (keep : Bool) (a : Fin 8) (h : Unholding c r) : Unholding c (evaluateRunout e keep a r) := by
  unfold evaluateRunout
  split
  · exact h
  · split
    · exact h
    · split
      · exact guardRunout_unholding keep _ a h
      · unfold tailStop
        split
        · refine h.congr ?_
          rw [Run.setTailStopped_chains, queueFor_frame, queueFor_frame]
        · exact h

theorem evaluatePorts_unholding (keep : Bool) (d : Fin 4) (h : Unholding c r) : Unholding c (evaluatePorts e keep d r) := by
  unfold evaluatePorts
  exact foldl_kept (fun r a h => evaluateRunout_unholding keep a h) _ h

/-- R109, R110: the chain whose hold has been held out holds nothing. -/
theorem heldOutRun_unholding : Unholding c (heldOutRun e c p q k r) := by
  have cleared : ((clearHold e c (notePartnerRan p q r)).chains.get c).hold = none
      ∧ ((clearHold e c (notePartnerRan p q r)).chains.get c).holdTimer = .idle := by
    unfold clearHold
    rw [Run.modChain_get, if_pos rfl]
    exact ⟨rfl, rfl⟩
  unfold heldOutRun
  generalize clearHold e c (notePartnerRan p q r) = r1 at cleared ⊢
  have derived : Unholding c (derive e c (raiseChain e (slotChangeFailed c) r1)) := by
    unfold Unholding derive
    rw [Run.modChain_get, if_pos rfl, raiseChain_frame]
    refine ⟨?_, cleared⟩
    exact derivedState_unholding e.setup
  unfold holdExpiryRule
  dsimp only
  split
  · exact derived
  · split
    · exact switchTo_unholding (fun _ => by rw [raiseChain_frame]; exact cleared) fun other => absurd rfl other
    · unfold evaluateReturn
      split
      · exact evaluatePorts_unholding _ _ derived
      · exact derived

/-- R110: a held CHANGE of the on-air position, with Fallback on. -/
theorem heldOutRun_falls (onAir : onAirPosition e.setup r c = some p) (fallback : (e.setup.modes.get c).fallback = true)
    (timer : (r.chains.get c).holdTimer = .expired) :
    (heldOutRun e c p q .change r).chains.get c = { (r.chains.get c).switched (fallbackInput e.setup c) .fallback
      (e.setup.modes.get c).holdLimit with hold := none, holdTimer := .idle } := by
  have air : onAirPosition e.setup (raiseChain e (slotChangeFailed c) (clearHold e c (notePartnerRan p q r))) c = some p := by
    rw [raiseChain_frame]
    refine (onAirPosition_congr ?_).trans onAir
    unfold clearHold
    rw [Run.modChain_get, if_pos rfl]
    rfl
  unfold heldOutRun holdExpiryRule
  dsimp only
  rw [air, if_neg (by simp), fallback, if_pos (by rfl)]
  unfold switchToFallback switchTo
  rw [Run.modChain_get, if_pos rfl, queueForChain_chains, raiseChain_frame]
  unfold clearHold
  dsimp only
  rw [Run.modChain_get, if_pos rfl]
  show ({ (r.chains.get c) with
    hold := _, holdTimer := _, holdSweeps := holdCount _ (r.chains.get c).holdTimer, target := _, fromInput := _, select := _
    switchTimer := _, state := _ } : ChainRec) = _
  rw [timer]
  rfl

end

end Sys2Proof.Machine
end

section
/-! PROOFS. The hold expiry as an event (O58). -/

namespace Sys2Proof.Machine

section
variable {e : Env} {c : Fin 4} {p q : Fin 8} {k : HoldKind} {b : Cue} {r : Run} {n : Nat}

theorem complete_chains (how : CueOutcome) : (complete e p b how r).chains = r.chains := by
  unfold complete
  dsimp only
  rw [queueNotice_frame]
  rfl

theorem complete_silent (silent : r.handoffs = []) (holding : (r.chains.get c).state = .holding) :
    (complete e p b .heldOut (heldOutRun e c p q k r)).handoffs = [] := by
  unfold complete
  rw [Run.modScan_handoffs, queueNotice_handoffs, (heldOutRun_side holding).handoffs]
  exact silent

/-- R108: the count that brings the expiry. -/
theorem countHold_expires (holding : (r.chains.get c).state = .holding) (timer : (r.chains.get c).holdTimer = .running n)
    (limit : (e.setup.modes.get c).holdLimit ≤ n + 1) :
    (countHold e c r).chains.get c = { r.chains.get c with holdTimer := .expired } := by
  unfold countHold
  have expires : (HoldTimer.running n).count (e.setup.modes.get c).holdLimit = .expired := if_pos limit
  rw [Run.modChain_get, if_pos rfl, if_pos holding, timer, expires]

theorem holdIsDue_expired (holding : (r.chains.get c).state = .holding) (timer : (r.chains.get c).holdTimer = .expired) :
    holdIsDue c r = true := by
  unfold holdIsDue chainState
  rw [holding, timer]
  rfl

theorem expireHold_hands (holding : (r.chains.get c).state = .holding) (timer : (r.chains.get c).holdTimer = .expired)
    (holds : (r.chains.get c).hold = some (p, k)) : expireHold c r = r.handAll [.cueEvent p .holdExpiry] := by
  unfold expireHold
  rw [holds]
  exact if_pos (holdIsDue_expired holding timer)

section
variable {z : Port} (hc : chainOf e.setup p = some (c, z)) (partner : partnerOf e.setup p = some q)
  (scans : scanned e.setup r p = true) (held : (r.scans.get p).hold = .hold)
  (record : cursorRecord e.setup r p = some (some b)) (holding : (r.chains.get c).state = .holding)
  (holds : (r.chains.get c).hold = some (p, k)) (timer : (r.chains.get c).holdTimer = .expired)
include hc held timer

theorem reachesReel_expired : reachesReel e .holdExpiry p r = true := by
  unfold reachesReel
  dsimp only
  rw [held, hc]
  dsimp only
  rw [timer]
  rfl

include partner scans record holding holds

/-- R83, R92: the held record completes HELD OUT, and the walk goes on. -/
theorem evaluate_heldOut :
    evaluate e .holdExpiry p r = walk e .holdExpiry p 32 (complete e p b .heldOut (heldOutRun e c p q k r)) := by
  rw [evaluate_scanned scans (reachesReel_expired hc held timer)]
  exact walk_goes (takeRecord_completes record (takeCue_heldOut hc partner held holding holds))

/-- What waits after the expiry is taken: the held record completes HELD OUT before anything else is taken. -/
theorem drain_heldOut (silent : r.handoffs = []) :
    drain e (r.handAll [.cueEvent p .holdExpiry])
      = drainFor e 4095 (walk e .holdExpiry p 32 (complete e p b .heldOut (heldOutRun e c p q k r))) := by
  rw [drain_first silent, evaluate_heldOut hc partner scans held record holding holds timer]

theorem heldOut_spread (silent : r.handoffs = []) :
    Spread e (complete e p b .heldOut (heldOutRun e c p q k r)) (drain e (r.handAll [.cueEvent p .holdExpiry])) := by
  rw [drain_heldOut hc partner scans held record holding holds timer silent]
  have quiet := complete_silent (b := b) (q := q) (k := k) (p := p) (e := e) silent holding
  have walked := (walk_walked (e := e) .holdExpiry p 32 (complete e p b .heldOut (heldOutRun e c p q k r))).spread
  refine walked.trans (drainFor_spread _ (walked.onlyCues fun h hh => ?_))
  rw [quiet] at hh
  exact absurd hh List.not_mem_nil

theorem heldOut_acts (silent : r.handoffs = []) {r0 : Run} {obs : Bool}
    (h : Acts e true obs r0 (complete e p b .heldOut (heldOutRun e c p q k r))) :
    Acts e true obs r0 (drain e (r.handAll [.cueEvent p .holdExpiry])) := by
  rw [drain_heldOut hc partner scans held record holding holds timer silent]
  exact drainFor_acts rfl _ (walk_acts _ _ _ h)

/-- R97: the notice of the record held out. -/
theorem heldOut_notices (silent : r.handoffs = []) (room : r.notices.length < 16) :
    ∃ rest, (drain e (r.handAll [.cueEvent p .holdExpiry])).notices = r.notices ++
      [{ sweep := e.sweep
         body := .cue p b.tag b.action .heldOut ((r.scans.get p).met == some true) (r.motions.get p).value }] ++ rest := by
  have side : ChainSide e c (notePartnerRan p q r) (heldOutRun e c p q k r) := heldOutRun_side holding
  have notices : (heldOutRun e c p q k r).notices = r.notices := side.notices
  have motions : (heldOutRun e c p q k r).motions = r.motions := side.motions
  have met : ((heldOutRun e c p q k r).scans.get p).met = (r.scans.get p).met := by
    rw [side.scans]
    unfold notePartnerRan
    rw [modScan_get_self]
  obtain ⟨rest, more⟩ := (heldOut_acts (obs := true) hc partner scans held record holding holds timer silent .refl).notices_prefix
  refine ⟨rest, ?_⟩
  rw [← more, complete_room b .heldOut (by rw [notices]; exact room)]
  dsimp only
  rw [notices, motions, met]

theorem heldOut_cursor (silent : r.handoffs = []) :
    (r.scans.get p).cursor < ((drain e (r.handAll [.cueEvent p .holdExpiry])).scans.get p).cursor := by
  have passed := (heldOut_spread hc partner scans held record holding holds timer silent).cursor p
  rw [complete_scan, (heldOutRun_side holding).scans] at passed
  unfold notePartnerRan at passed
  rw [modScan_get_self] at passed
  exact passed

end

end

section
variable {s : State} {c : Fin 4} {p q : Fin 8} {k : HoldKind} {z : Port} {b : Cue} {n : Nat}

/-- R108: the expiry of the hold timer. -/
theorem holdExpiry_leaves (ha : s.acting) (hq : s.quiet) (holding : (s.run.chains.get c).state = .holding)
    (holds : (s.run.chains.get c).hold = some (p, k)) (running : (s.run.chains.get c).holdTimer = .running n)
    (limit : (s.setup.modes.get c).holdLimit ≤ n + 1)
    (hc : chainOf s.setup p = some (c, z)) (partner : partnerOf s.setup p = some q) (scans : scanned s.setup s.run p = true)
    (held : (s.run.scans.get p).hold = .hold) (record : cursorRecord s.setup s.run p = some (some b)) :
    let before := s.run.chains.get c
    ∃ t, exec (.holdExpiry c) s = .next t ∧ OnlyBlocksActed s t ∧ LadderKept s t
      ∧ t.run.motions = s.run.motions
      ∧ (∀ d, (t.run.chains.get d).observed = (s.run.chains.get d).observed)
      ∧ RaisedIn s t (slotChangeFailed c) none
      ∧ (s.run.scans.get p).cursor < (t.run.scans.get p).cursor
      ∧ (s.run.notices.length < 16 → ∃ rest, t.run.notices = s.run.notices ++
          [{ sweep := s.port.sweep
             body := .cue p b.tag b.action .heldOut ((s.run.scans.get p).met == some true) (s.run.motions.get p).value }] ++ rest)
      ∧ (isOnAir s.setup s.run p = true → k = .change → (s.setup.modes.get c).fallback = true →
          t.run.chains.get c = { before.switched (fallbackInput s.setup c) .fallback
            (s.setup.modes.get c).holdLimit with hold := none, holdTimer := .idle })
      ∧ (isOnAir s.setup s.run p = true → (s.run.scans.get p).cursor + 1 = listLength s.setup p →
          (t.run.chains.get c).state ≠ .holding ∧ (t.run.chains.get c).hold = none
            ∧ (t.run.chains.get c).holdTimer = .idle) := by
  intro before
  obtain ⟨r, counted⟩ : ∃ r, countHold s.env c s.run = r := ⟨_, rfl⟩
  have chain : r.chains.get c = { before with holdTimer := .expired } := counted ▸ countHold_expires holding running limit
  have counts : Acts s.env false false s.run r := counted ▸ countHold_acts c .refl
  have frame : r = { s.run with chains := r.chains } := by
    rw [← counted]
    rfl
  have silent : r.handoffs = [] := by rw [frame]; exact hq
  have held' : (r.scans.get p).hold = .hold := by rw [frame]; exact held
  have scans' : scanned s.env.setup r p = true := by rw [frame]; exact scans
  have record' : cursorRecord s.env.setup r p = some (some b) := by rw [frame]; exact record
  have holding' : (r.chains.get c).state = .holding := by rw [chain]; exact holding
  have holds' : (r.chains.get c).hold = some (p, k) := by rw [chain]; exact holds
  have timer' : (r.chains.get c).holdTimer = .expired := by rw [chain]
  have acted := expireHold_hands holding' timer' holds'
  have hands : Acts s.env false false s.run (r.handAll [.cueEvent p .holdExpiry]) := acted ▸ expireHold_acts c counts
  have quiet : NoMotionDue (r.handAll [.cueEvent p .holdExpiry]) := hands.noMotionDue (noMotionDue_of_quiet hq)
  obtain ⟨t, fell, only, run, moved⟩ := event_drains (count := fun e r => countHold e c r) (due := fun _ r => holdIsDue c r)
    (f := fun _ r => expireHold c r) ha (by rw [counted]; exact holdIsDue_expired holding' timer') (by rw [counted]; exact acted) quiet
  have done : Acts s.env true false (raiseChain s.env (slotChangeFailed c) (clearHold s.env c (notePartnerRan p q r))) t.run := by
    rw [run]
    exact heldOut_acts hc partner scans' held' record' holding' holds' timer' silent (complete_acts _ _ _ holdExpiryRule_raised_acts)
  have spread := heldOut_spread hc partner scans' held' record' holding' holds' timer' silent
  rw [← run] at spread
  refine ⟨t, congrArg Host.Outcome.next fell, only,
    ladderKept_of_event (i := .holdExpiry c) rfl (congrArg Host.Outcome.next fell), moved.trans hands.motions, fun d => ?_,
    ?_, ?_, fun room => ?_, fun onAir change fallback => ?_, fun _ last => ?_⟩
  · rw [run, (drain_acts_quietly (e := s.env) (obs := false) quiet).observed_same d]
    exact hands.observed_same d
  · refine raisedIn_of (full := true) (obs := false) (r1 := clearHold s.env c (notePartnerRan p q r)) ?_ done
    show r.slots.get _ = _
    rw [frame]
  · have later := heldOut_cursor hc partner scans' held' record' holding' holds' timer' silent
    rw [← run, frame] at later
    exact later
  · obtain ⟨rest, more⟩ := heldOut_notices hc partner scans' held' record' holding' holds' timer' silent (by rw [frame]; exact room)
    rw [← run, frame] at more
    exact ⟨rest, more⟩
  · subst change
    have falls : (heldOutRun s.env c p q .change r).chains.get c = { before.switched (fallbackInput s.setup c) .fallback
        (s.setup.modes.get c).holdLimit with hold := none, holdTimer := .idle } := by
      refine (heldOutRun_falls ?_ fallback timer').trans ?_
      · refine (onAirPosition_congr ?_).trans (onAirPosition_of_isOnAir hc onAir)
        rw [chain]
      · rw [chain]
        rfl
    have rests : ((complete s.env p b .heldOut (heldOutRun s.env c p q .change r)).chains.get c).Resting := by
      rw [complete_chains, falls]
      exact ⟨⟨nofun, nofun, nofun⟩, fun _ _ i => by simp⟩
    rw [spread.chains c rests, complete_chains]
    exact falls
  · have ended : evaluate s.env .holdExpiry p r = complete s.env p b .heldOut (heldOutRun s.env c p q k r) := by
      refine evaluate_completes scans' (reachesReel_expired hc held' timer') record'
        (takeCue_heldOut hc partner held' holding' holds') ?_
      rw [(heldOutRun_side holding').scans]
      unfold notePartnerRan
      rw [modScan_get_self, frame]
      exact last
    have none_left : (evaluate s.env .holdExpiry p r).handoffs = [] := by
      rw [ended]
      exact complete_silent silent holding'
    rw [run, drain_one silent none_left, ended]
    exact heldOutRun_unholding.congr (by rw [complete_chains])

end

end Sys2Proof.Machine
end

section
/-! PROOFS. A switch that ends unconfirmed: the switch expiry (O58). -/

namespace Sys2Proof.Machine

/-! ### The switch ended (R114, R115) -/

/-- The order queue with a chain's SELECT withdrawn, where it is still QUEUED. -/
def withdrawnOrders (x : ChainRec) (d : ChainDef) (orders : List OrderEntry) : List OrderEntry :=
  if x.select = .queued then orders.filter (fun y => !(y.holds d.station .select)) else orders

theorem code_eq_select_iff (o : Order) : (o.code == (Order.select .port0).code) = (o.family == .select) := by
  cases o <;> rfl

section
variable {e : Env} {c : Fin 4} {r : Run} {d : ChainDef}

theorem withdrawSelect_eq (hd : e.setup.chains.get c = some d) :
    withdrawSelect e c r = { r with orders := withdrawnOrders (r.chains.get c) d r.orders } := by
  unfold withdrawSelect withdrawnOrders
  split
  · rw [hd]
    dsimp only
    unfold withdrawOrder OrderEntry.holds
    simp only [code_eq_select_iff]
  · rfl

/-- The run with the switch of c over and its state derived. -/
def unswitchedRun (e : Env) (c : Fin 4) (r : Run) : Run := derive e c (clearSwitch c (withdrawSelect e c r))

theorem withdrawSelect_frame : withdrawSelect e c r = { r with orders := (withdrawSelect e c r).orders } := by
  unfold withdrawSelect
  split
  · split <;> rfl
  · rfl

theorem unswitchedRun_eq : unswitchedRun e c r = { r with
    orders := (withdrawSelect e c r).orders
    chains := r.chains.set c ((r.chains.get c).unswitched (r.chains.get c).observed (derivedState e.setup r c)) } := by
  unfold unswitchedRun
  rw [withdrawSelect_frame]
  have derived : derivedState e.setup (clearSwitch c { r with orders := (withdrawSelect e c r).orders }) c
      = derivedState e.setup r c := by
    unfold derivedState clearSwitch
    rw [Run.modChain_get, if_pos rfl]
    rfl
  unfold derive
  rw [derived]
  unfold clearSwitch Run.modChain
  dsimp only
  rw [get_set_fin, if_pos rfl, Vector.set_set]

theorem unswitchedRun_chain : (unswitchedRun e c r).chains.get c
    = (r.chains.get c).unswitched (r.chains.get c).observed (derivedState e.setup r c) := by
  rw [unswitchedRun_eq]
  exact (get_set_fin ..).trans (if_pos rfl)

end

/-! ### A loss that stands at a return (R117, R118) -/

section
variable {s : State} {c : Fin 4} {i : Input}

/-- The position at port z, on air by the selection i, has a loss that stands. -/
def LostAt (s : State) (c : Fin 4) (i : Input) (z : Port) (p : Fin 8) : Prop :=
  i = Port.input z ∧ portPosition s.setup c z = some p ∧ (s.setup.positions.get p).isSome = true ∧ LossStands s p

theorem LostAt.onAir {z : Port} {p : Fin 8} (h : LostAt s c i z p) (observed : (s.run.chains.get c).observed = some i) :
    onAirPosition s.setup s.run c = some p := by
  obtain ⟨rfl, port, defined, _⟩ := h
  exact onAirPosition_eq_some.2 ⟨z, observed, port, defined⟩

theorem reapplyLoss_unlost (observed : (s.run.chains.get c).observed = some i)
    (stays : (s.setup.modes.get c).fallback = false ∨ ∀ z p, ¬ LostAt s c i z p) : reapplyLoss s.env c s.run = s.run := by
  rcases stays with off | sound
  · exact reapplyLoss_off (.inr off)
  · refine reapplyLoss_none ?_
    cases air : onAirPosition s.setup s.run c with
    | none => exact .inl air
    | some p =>
      refine .inr (Bool.eq_false_iff.2 fun stands => ?_)
      obtain ⟨z, shows, port, defined⟩ := onAirPosition_eq_some.1 air
      exact sound z p ⟨Option.some.inj (observed.symm.trans shows), port, defined, (lossStands_iff air).1 stands⟩

theorem LostAt.reapply {z : Port} {p : Fin 8} (h : LostAt s c i z p) (observed : (s.run.chains.get c).observed = some i) :
    reapplyLoss s.env c s.run = reactToLoss s.env c p false s.run := by
  have air := h.onAir observed
  obtain ⟨_, _, _, stands⟩ := h
  exact reapplyLoss_stands air ((lossStands_iff air).2 stands)

theorem stateFrom_film {z : Port} : StateFrom s c z.input = .single ∨ StateFrom s c z.input = .double := by
  unfold StateFrom
  rw [Port.input_port]
  dsimp only
  split
  · exact .inr rfl
  · exact .inl rfl

end

/-! ### The switch expiry (R114) -/

section
variable {s : State} {c : Fin 4} {n : Nat}

/-- The run when the switch of c has failed, before its end is handed to the reels. -/
def failedRun (s : State) (c : Fin 4) : Run :=
  unswitchedRun s.env c (raiseChain s.env (slotSwitchFailed c) (countSwitch c s.run))

theorem countSwitch_chain (switching : (s.run.chains.get c).state = .switching) :
    (countSwitch c s.run).chains.get c
      = { s.run.chains.get c with switchTimer := (s.run.chains.get c).switchTimer.map (· + 1) } := by
  unfold countSwitch
  rw [Run.modChain_get, if_pos rfl, if_pos switching]

theorem failedRun_chain (switching : (s.run.chains.get c).state = .switching) : (failedRun s c).chains.get c
    = (s.run.chains.get c).unswitched (s.run.chains.get c).observed (derivedState s.setup s.run c) := by
  unfold failedRun
  rw [unswitchedRun_chain, raiseChain_frame]
  dsimp only
  have derived : derivedState s.env.setup { countSwitch c s.run with
      slots := (raiseChain s.env (slotSwitchFailed c) (countSwitch c s.run)).slots } c = derivedState s.setup s.run c := by
    unfold derivedState
    dsimp only
    rw [countSwitch_chain switching]
    rfl
  rw [derived, countSwitch_chain switching]

theorem failedRun_eq {d : ChainDef} (switching : (s.run.chains.get c).state = .switching) (hd : s.setup.chains.get c = some d) :
    failedRun s c = { s.run with
      slots := (failedRun s c).slots, orders := withdrawnOrders (s.run.chains.get c) d s.run.orders
      chains := s.run.chains.set c
        ((s.run.chains.get c).unswitched (s.run.chains.get c).observed (derivedState s.setup s.run c)) } := by
  have chain := failedRun_chain switching
  unfold failedRun at chain ⊢
  rw [unswitchedRun_eq] at chain ⊢
  rw [withdrawSelect_eq (e := s.env) hd, raiseChain_frame] at chain ⊢
  dsimp only at chain ⊢
  rw [get_set_fin, if_pos rfl] at chain
  rw [chain, countSwitch_chain switching]
  unfold countSwitch Run.modChain
  dsimp only
  rw [Vector.set_set]
  rfl

theorem failedRun_acts {full obs : Bool} :
    Acts s.env full obs (raiseChain s.env (slotSwitchFailed c) (countSwitch c s.run)) (failedRun s c) :=
  derive_acts _ (clearSwitch_acts _ (withdrawSelect_acts _ .refl))

theorem failedRun_slots : (failedRun s c).slots = (raiseChain s.env (slotSwitchFailed c) (countSwitch c s.run)).slots := by
  unfold failedRun
  rw [unswitchedRun_eq]

theorem expireSwitch_fails (limit : (s.setup.modes.get c).switchLimit ≤ n + 1) (switching : (s.run.chains.get c).state = .switching)
    (timer : (s.run.chains.get c).switchTimer = some n) : switchIsDue s.env c (countSwitch c s.run) = true
    ∧ expireSwitch s.env c (countSwitch c s.run) = endUnconfirmed s.env c (failedRun s c) (failedRun s c) := by
  have due : switchIsDue s.env c (countSwitch c s.run) = true := by
    unfold switchIsDue chainState
    rw [countSwitch_chain switching, timer]
    dsimp only
    rw [switching]
    exact decide_eq_true limit
  exact ⟨due, if_pos due⟩

end

end Sys2Proof.Machine
end

section
/-! PROOFS. The switch expiry as an event, and the chain timers (O58). -/

namespace Sys2Proof.Machine

section
variable {s t : State} {c : Fin 4} {n : Nat}

/-- R114: what the expiry of the switch timer leaves, whatever the reels take of it. -/
structure SwitchFailed (s t : State) (c : Fin 4) : Prop where
  run : t.run = drain s.env (endUnconfirmed s.env c (failedRun s c) (failedRun s c))
  only : OnlyBlocksActed s t
  motions : t.run.motions = s.run.motions
  spread : Spread s.env (failedRun s c) t.run
  observed : ∀ d, (t.run.chains.get d).observed = (s.run.chains.get d).observed
  raised : RaisedIn s t (slotSwitchFailed c) none
  notices : s.run.notices <+: t.run.notices

theorem failedRun_handoffs : (failedRun s c).handoffs = s.run.handoffs := by
  unfold failedRun
  rw [unswitchedRun_eq, raiseChain_frame]
  rfl

/-- R114: the expiry of the switch timer. -/
theorem switchExpiry_fails (ha : s.acting) (hq : s.quiet) (switching : (s.run.chains.get c).state = .switching)
    (timer : (s.run.chains.get c).switchTimer = some n) (limit : (s.setup.modes.get c).switchLimit ≤ n + 1) :
    ∃ t, exec (.switchExpiry c) s = .next t ∧ SwitchFailed s t c := by
  obtain ⟨due, acted⟩ := expireSwitch_fails limit switching timer
  have acts : Acts s.env false false s.run (endUnconfirmed s.env c (failedRun s c) (failedRun s c)) :=
    acted ▸ expireSwitch_acts c (countSwitch_acts c .refl)
  have quiet := acts.noMotionDue (noMotionDue_of_quiet hq)
  obtain ⟨t, fell, only, run, moved⟩ := event_drains (count := fun _ r => countSwitch c r) (due := fun e r => switchIsDue e c r)
    (f := fun e r => expireSwitch e c r) ha due acted quiet
  have drained := drain_acts_quietly (e := s.env) (obs := false) quiet
  have ended : Spread s.env (failedRun s c) (endUnconfirmed s.env c (failedRun s c) (failedRun s c)) := endUnconfirmed_spread c _ _
  have raised : Acts s.env true true (raiseChain s.env (slotSwitchFailed c) (countSwitch c s.run))
      (endUnconfirmed s.env c (failedRun s c) (failedRun s c)) := endUnconfirmed_acts _ _ failedRun_acts
  have cues : OnlyCues (failedRun s c) := fun h hh => by
    rw [failedRun_handoffs, show s.run.handoffs = [] from hq] at hh
    exact absurd hh List.not_mem_nil
  refine ⟨t, congrArg Host.Outcome.next fell, run, only, moved.trans acts.motions, ?_, fun d => ?_,
    raisedIn_of_drain (x := none) (r0 := countSwitch c s.run) rfl raised run, ?_⟩
  · rw [run]
    exact ended.trans (drain_spread (ended.onlyCues cues))
  · rw [run, drained.observed_same d]
    exact acts.observed_same d
  · rw [run]
    exact acts.notices_prefix.trans drained.notices_prefix

/-- R104: a chain whose selection is the caption or black is DARK, and rests. -/
theorem SwitchFailed.dark (failed : SwitchFailed s t c) (switching : (s.run.chains.get c).state = .switching)
    (unlit : (s.run.chains.get c).observed = some .caption ∨ (s.run.chains.get c).observed = some .black) :
    t.run.chains.get c = (s.run.chains.get c).unswitched (s.run.chains.get c).observed .dark := by
  have derived : derivedState s.setup s.run c = .dark := by
    unfold derivedState
    rcases unlit with h | h <;> rw [h] <;> rfl
  have chain := failedRun_chain switching
  rw [derived] at chain
  have rests : ((failedRun s c).chains.get c).Resting := by
    rw [chain]
    exact ⟨⟨nofun, nofun, nofun⟩, nofun⟩
  exact (failed.spread.chains c rests).trans chain

theorem failedRun_slot {j : Fin 82} (other : j ≠ slotSwitchFailed c) : (failedRun s c).slots.get j = s.run.slots.get j := by
  rw [failedRun_slots]
  exact raise_slot_other none none other

/-- What the expiry leaves besides the failed switch: the chain's record, the orders, the strikes and the lamps. -/
def SwitchLeaves (s t : State) (c : Fin 4) (y : ChainRec) (orders : List OrderEntry) (queue : List StrikeEntry)
    (lamps : Vector LampRec 8) : Prop :=
  t.run = { s.run with
    slots := t.run.slots, chains := s.run.chains.set c y, orders := orders, strikeQueue := queue
    lamps := lamps, runoutRaised := t.run.runoutRaised, tailStopped := t.run.tailStopped }
  ∧ ∀ j, j ≠ slotSwitchFailed c → t.run.slots.get j = s.run.slots.get j

section
variable {d : ChainDef} (hq : s.quiet) (failed : SwitchFailed s t c) (single : PortsSingle s.setup)
  (hd : s.setup.chains.get c = some d) (switching : (s.run.chains.get c).state = .switching)
  (still : ∀ z q, portPosition s.setup c z = some q → NothingToTake s q ∧ pastRunout s.setup s.run c q = false)
include hq failed single hd switching still

/-- R118, R119: with nothing to take and nothing past runout, only a standing loss is answered. -/
theorem SwitchFailed.leaves {y : ChainRec} {orders : List OrderEntry} {queue : List StrikeEntry} {lamps : Vector LampRec 8}
    (reapplied : reapplyLoss s.env c { s.run with
        slots := (failedRun s c).slots, orders := withdrawnOrders (s.run.chains.get c) d s.run.orders
        chains := s.run.chains.set c
          ((s.run.chains.get c).unswitched (s.run.chains.get c).observed (derivedState s.setup s.run c)) }
      = { s.run with
        slots := (failedRun s c).slots, chains := s.run.chains.set c y, orders := orders, strikeQueue := queue, lamps := lamps }) :
    SwitchLeaves s t c y orders queue lamps := by
  rw [← failedRun_eq switching hd] at reapplied
  have idle : ∀ a z, portPosition s.env.setup c z = some a → Nothing s.env.setup (failedRun s c) a := fun a z port => by
    have nothing : Nothing s.env.setup s.run a := (still z a port).1
    exact nothing.congr (by rw [failedRun_eq switching hd]) (by rw [failedRun_eq switching hd]) failedRun_handoffs
  obtain ⟨raised, stopped, returned⟩ := evaluateReturn_still (e := s.env) (c := c) (keep := false) (back := failedRun s c)
    (r := { s.run with
      slots := (failedRun s c).slots, chains := s.run.chains.set c y, orders := orders, strikeQueue := queue, lamps := lamps })
    single fun z a port => (pastRunout_congr rfl c a).trans (still z a port).2
  have ended := failed.run
  unfold endUnconfirmed at ended
  rw [evaluateBoth_nothing idle, reapplied, returned] at ended
  replace ended := ended.trans (drain_quiet (by exact hq))
  refine ⟨?_, fun j other => ?_⟩
  · rw [ended]
  · rw [ended]
    exact failedRun_slot other

/-- R104: no selection observed. -/
theorem SwitchFailed.leaves_unknown (unseen : (s.run.chains.get c).observed = none) :
    SwitchLeaves s t c ((s.run.chains.get c).unswitched none .unknown) (withdrawnOrders (s.run.chains.get c) d s.run.orders)
      s.run.strikeQueue s.run.lamps := by
  have derived : derivedState s.setup s.run c = .unknown := by
    unfold derivedState
    rw [unseen]
  refine failed.leaves hq single hd switching still ?_
  rw [derived, unseen]
  refine reapplyLoss_none (.inl ?_)
  unfold onAirPosition
  dsimp only
  rw [get_set_fin, if_pos rfl]
  rfl

section
variable {i : Input} (observed : (s.run.chains.get c).observed = some i)
include observed

/-- R104: the state derived, and no loss answered. -/
theorem SwitchFailed.leaves_derived (stays : (s.setup.modes.get c).fallback = false ∨ ∀ z p, ¬ LostAt s c i z p) :
    SwitchLeaves s t c ((s.run.chains.get c).unswitched (some i) (StateFrom s c i))
      (withdrawnOrders (s.run.chains.get c) d s.run.orders) s.run.strikeQueue s.run.lamps := by
  refine failed.leaves hq single hd switching still ?_
  rw [derivedState_eq observed rfl, observed]
  exact reapplyLoss_unlost (s := { s with run := { s.run with
    slots := (failedRun s c).slots, orders := withdrawnOrders (s.run.chains.get c) d s.run.orders
    chains := s.run.chains.set c ((s.run.chains.get c).unswitched (some i) (StateFrom s c i)) } })
    (by dsimp only; rw [get_set_fin, if_pos rfl]) stays

/-- R117: a loss that stands answered. -/
theorem SwitchFailed.leaves_answered {z : Port} {p : Fin 8} {a : Input} {k : SwitchKind}
    (fallback : (s.setup.modes.get c).fallback = true) (lost : LostAt s c i z p) (answer : LossAnswer s c z p a k) :
    let leaves := SwitchLeaves s t c (((s.run.chains.get c).unswitched (some i) (StateFrom s c i)).switched a k 0)
      (enqueueOrder d.station (.select a) (withdrawnOrders (s.run.chains.get c) d s.run.orders))
    (k = .change ∨ (∀ q, IsNext s p q → (s.run.lamps.get q).lamp ≠ .dark) → leaves s.run.strikeQueue s.run.lamps)
    ∧ (∀ q, k = .fallback → IsNext s p q → (s.run.lamps.get q).lamp = .dark → s.run.gate ≠ .free →
        leaves (s.run.strikeQueue ++ [{ position := q, cls := .urgent }])
          (s.run.lamps.set q { s.run.lamps.get q with lamp := .queued })) := by
  intro leaves
  obtain ⟨u, hu⟩ : ∃ u : State, u = { s with run := { s.run with
    slots := (failedRun s c).slots, orders := withdrawnOrders (s.run.chains.get c) d s.run.orders
    chains := s.run.chains.set c ((s.run.chains.get c).unswitched (some i) (StateFrom s c i)) } } := ⟨_, rfl⟩
  have chain : u.run.chains.get c = (s.run.chains.get c).unswitched (some i) (StateFrom s c i) := by
    rw [hu]
    exact (get_set_fin ..).trans (if_pos rfl)
  have lost' : LostAt u c i z p := by rw [hu]; exact lost
  have answer' : LossAnswer u c z p a k := by rw [hu]; exact answer
  have observed' : (u.run.chains.get c).observed = some i := by rw [chain]
  have film : (u.run.chains.get c).state = .single ∨ (u.run.chains.get c).state = .double := by
    obtain ⟨rfl, _⟩ := lost
    rw [chain]
    exact stateFrom_film
  have setup : u.setup = s.setup := by rw [hu]
  have port : chainOf u.setup p = some (c, z) := by
    rw [setup]
    exact chainOf_of_port single lost.2.1
  have air : isOnAir u.setup u.run p = true := by
    unfold isOnAir
    rw [port]
    exact beq_iff_eq.2 (lost'.onAir observed')
  obtain ⟨beside, joins⟩ := reactToLoss_answers (s := u) (keep := false) (setup ▸ single) port (setup ▸ hd) air film
    (setup ▸ fallback) answer'
  have left : ∀ {queue lamps}, reactToLoss u.env c p false u.run = { u.run with
        orders := enqueueOrder d.station (.select a) u.run.orders
        chains := u.run.chains.set c ((u.run.chains.get c).switched a k 0)
        strikeQueue := queue, lamps := lamps } → leaves queue lamps := fun reacted => by
    refine failed.leaves hq single hd switching still ?_
    rw [derivedState_eq observed rfl, observed]
    have reapplied := (lost'.reapply observed').trans reacted
    rw [chain, hu] at reapplied
    dsimp only at reapplied
    rw [Vector.set_set] at reapplied
    exact reapplied
  refine ⟨fun lit => ?_, fun q falls next dark busy => ?_⟩
  · have lit' : k = .change ∨ ∀ q, IsNext u p q → (u.run.lamps.get q).lamp ≠ .dark := by rw [hu]; exact lit
    have reached := left (beside lit')
    rw [hu] at reached
    exact reached
  · have reached := left (joins q falls (by rw [hu]; exact next) (by rw [hu]; exact dark) (by rw [hu]; exact busy))
    rw [hu] at reached
    exact reached

end

end

end

end Sys2Proof.Machine

namespace Sys2Proof.Proofs

open Sys2Proof.Machine

/-- Settles O58: the held record completes before the walk goes on; a failed switch is ended, and with the reels still only a
standing loss is answered. -/
theorem chainTimersExpire : Obligations.ChainTimersExpire := by
  intro c n s ha hq before
  refine ⟨fun p q k x b holding holds running limit hc partner scans held record =>
    holdExpiry_leaves ha hq holding holds running limit hc partner scans held record, fun switching timer limit => ?_⟩
  obtain ⟨t, fell, failed⟩ := switchExpiry_fails ha hq switching timer limit
  refine ⟨t, fell, failed.only, ladderKept_of_event (i := .switchExpiry c) rfl fell, failed.motions, failed.observed, failed.raised,
    failed.notices, failed.dark switching, fun d single hd still => ?_⟩
  intro lost orders leaves
  refine ⟨failed.leaves_unknown hq single hd switching still, fun i observed => ?_⟩
  intro ended
  refine ⟨fun stays => ?_, fun z p a k fallback lose answer => ?_⟩
  · refine failed.leaves_derived hq single hd switching still observed (stays.imp_right fun none_lost z p lose => none_lost z p ?_)
    obtain ⟨rfl, rest⟩ := lose
    exact ⟨observed, rest⟩
  · obtain ⟨shows, rest⟩ := lose
    exact failed.leaves_answered hq single hd switching still observed fallback
      ⟨Option.some.inj (observed.symm.trans shows), rest⟩ answer

end Sys2Proof.Proofs
end

section
/-! PROOFS. MUX reports (O46): a grant made while the roles are worked takes back a READY that was published of a lamp
still QUEUED, before the standing loss is answered. -/

namespace Sys2Proof.Machine

/-! ### A chain that leaves SWITCHING with its NEXT both QUEUED and READY -/

/-- Chain 0 pairs positions 0 and 1, with Fallback on. Position 2, at no port, has a LAMP DOWN at its cursor. A strike
that ends leaves the gate FREE at once. -/
def queuedReadySetup : Setup :=
  { Setup.initial with
    positions := #v[some ⟨10, .mm35, .fps24⟩, some ⟨11, .mm35, .fps24⟩, some ⟨12, .mm16, .fps25⟩, none, none, none, none, none]
    chains := #v[some ⟨20, some 0, some 1, true⟩, none, none, none]
    modes := Setup.initial.modes.set 0 { Setup.initial.modes.get 0 with fallback := true }
    pages := Setup.initial.pages.set 0
      ((Setup.initial.pages.get 0).set 0 (some { trigger := .position, point := 0, action := .lampDown, tag := 7 }))
    reels := Setup.initial.reels.set 2 { Setup.initial.reels.get 2 with slots := #v[some 0, none, none, none] }
    params := { Setup.initial.params with staggerGap := 0 } }

/-- Position 1 is QUEUED and published READY, which StrikesSound forbids. Position 2 strikes, and its role, last worked
FAULTED, is to change. Chain 0 switches to the caption from black. -/
def queuedReadyRun : Run :=
  { ((((State.reset.run.modMotion 2 fun m => { m with referenced := true, motion := .stopped }).modLamp 1
        fun l => { l with lamp := .queued, ready := true }).modLamp 2
        fun l => { l with lamp := .striking, strikeTimer := some 0 }).modChain 0
        fun x => { x with
          state := .switching, target := some (.caption, .planned), fromInput := some .black, observed := some .black
          select := .sent, switchTimer := some 1 }) with
    strikeQueue := [{ position := 1, cls := .ordinary }]
    gate := .striking 2
    roles := State.reset.run.roles.set 2 .faulted }

def queuedReady : State :=
  { State.reset with
    port := { State.reset.port with own := 40, straps := 40, monitor := .locked, silence := some 0, sweep := 9 }
    setup := queuedReadySetup, run := queuedReadyRun }

theorem queuedReady_acts : queuedReady.acting ∧ queuedReady.contactRight ∧ queuedReady.quiet := by decide

theorem queuedReady_single : PortsSingle queuedReady.setup := by decide

theorem queuedReady_idle : ∀ p, (chainOf queuedReady.setup p).isSome = true →
    scanned queuedReady.setup queuedReady.run p = false ∧ pastRunout queuedReady.setup queuedReady.run 0 p = false := by decide

theorem queuedReady_next : IsNext queuedReady 0 1 := by decide

theorem queuedReady_lost : LostAt queuedReady 0 .port0 .zero 0 := ⟨rfl, rfl, rfl, .inl ⟨nofun, nofun⟩⟩

/-- R117: the answer that the READY of position 1, as last published, calls for. -/
theorem queuedReady_answer : LossAnswer queuedReady 0 .zero 0 .port1 .change := .inl ⟨rfl, rfl, 1, queuedReady_next, rfl⟩

/-- The target of chain 0 in an outcome's next state. -/
def leavesTarget : Host.Outcome State Fault Refusal → Option (Input × SwitchKind)
  | .next t => (t.run.chains.get 0).target
  | .fault _ | .refused _ => none

/-- The strike of position 2 is cancelled, position 1 is granted and so no longer READY, and the chain falls back. -/
theorem queuedReady_falls : leavesTarget (exec (.returnMux 20 (payload13 0 0 0)) queuedReady) = some (.caption, .fallback) := by
  decide

end Sys2Proof.Machine

namespace Sys2Proof.Proofs

open Sys2Proof.Machine

/-- Refutes O46: the working of the roles walks other reels, and their grant takes back the READY of a NEXT whose lamp is
QUEUED (no premise says StrikesSound), so that the loss is answered by FALLBACK and not by CHANGE. -/
theorem not_muxReportObserved : ¬ Obligations.MuxReportObserved := by
  intro h
  obtain ⟨acting, right, quiet⟩ := queuedReady_acts
  obtain ⟨t, next, _, _, _, _, _, _, _, _, _, switching⟩ :=
    h 20 (payload13 0 0 0) 20 0 .port0 queuedReady acting right quiet rfl rfl rfl rfl
  obtain ⟨-, -, abandons⟩ := switching .caption .planned rfl rfl
  obtain ⟨-, -, left⟩ := abandons nofun nofun
  have still : ∀ p y, chainOf queuedReady.setup p = some (0, y) →
      NothingToTake queuedReady p ∧ pastRunout queuedReady.setup queuedReady.run 0 p = false := fun p y hc =>
    have idle := queuedReady_idle p (by rw [hc]; rfl)
    ⟨.inl idle.1, idle.2⟩
  obtain ⟨-, answered⟩ := left still queuedReady_single
  have switched := answered .zero 0 .port1 .change rfl queuedReady_lost queuedReady_answer
  have falls := queuedReady_falls
  rw [next] at falls
  have target : (t.run.chains.get 0).target = some (.port1, .change) := congrArg ChainRec.target switched
  exact nomatch target.symm.trans falls

end Sys2Proof.Proofs
end
